-- ==== Sys2Proof/Word.lean ====
section
/-! DEFINITION. The word types of the module (R8, R9): bytes, 16-, 32- and 64-bit words, and the
little-endian reading and writing of multi-byte fields that every register and memory structure uses. -/

namespace Sys2Proof

/-- One byte of memory. -/
abbrev Byte := BitVec 8
/-- A 16-bit field. -/
abbrev U16 := BitVec 16
/-- A register or a 32-bit field (R8). -/
abbrev U32 := BitVec 32
/-- A 64-bit general register or field. -/
abbrev U64 := BitVec 64

/-- The number a little-endian byte string spells (R8). -/
def leNat : List Byte → Nat
  | [] => 0
  | b :: bs => b.toNat + 256 * leNat bs

/-- The `k` little-endian bytes of a number (R8). -/
def leBytes : Nat → Nat → List Byte
  | 0, _ => []
  | k + 1, n => BitVec.ofNat 8 n :: leBytes k (n / 256)

/-- Bits `[hi:lo]` of a number, as a number. -/
def bits (n hi lo : Nat) : Nat := (n / 2 ^ lo) % 2 ^ (hi + 1 - lo)

/-- One bit of a number. -/
def bit (n i : Nat) : Bool := (n / 2 ^ i) % 2 == 1

/-- The bit a Boolean stands for. -/
def b2n (b : Bool) : Nat := if b then 1 else 0

/-- The least multiple count: `⌈a ÷ b⌉`. -/
def ceilDiv (a b : Nat) : Nat := (a + b - 1) / b

/-- `a` rounded up to a multiple of `b`. -/
def roundUp (a b : Nat) : Nat := ceilDiv a b * b

end Sys2Proof
end

