-- ==== Sys2Proof/Syntax.lean ====
section
/-! DEFINITION. The commands of the module: one constructor for each row of spec/opcode_table.json, with the
operands that the row's step needs. Where the spec gives an operand a place in State (an argument register, a
queue's ring, an engine's issue queue) the constructor only names that place; where the operand comes from outside
(a packet, a flit, a measurement, a pin) the constructor carries it. -/

namespace Sys2Proof

/-- A Fyrath core: core `c` of tile `t`, or a hub core (R39, R177). -/
inductive CoreId where
  | tile (t c : Nat)
  | hub (h : Nat)
deriving DecidableEq, Repr

/-- A general register x0 to x31 (R179). -/
abbrev Reg := Fin 32

/-- Integer ALU operations of R180. -/
inductive AluOp where
  | add | sub | mul | div | divu | sll | srl | sra | and | or | xor | seq | slt | sltu
deriving DecidableEq, Repr

/-- Scopes of R256, in the encoding order of R180. -/
inductive Scope where
  | tile | die | device | system
deriving DecidableEq, Repr

/-- Orders of an atomic, bits [1:0] of R254. -/
inductive MemOrder where
  | relaxed | acquire | release | acqRel
deriving DecidableEq, Repr

/-- Scalar FP32 operations of R179. -/
inductive FpOp where
  | add | mul | fma | cmpEq | cmpNe | cmpLt | cmpLe | cmpUnord | cvtF2I | cvtI2F
deriving DecidableEq, Repr

/-- Fields of an ATOMIC word (R254): width, scope, order and registers. -/
structure AtomicArgs where
  core : CoreId
  w64 : Bool
  scope : Scope
  order : MemOrder
  rd : Reg
  rs1 : Reg
  rs2 : Reg
deriving DecidableEq, Repr

/-- Kinds of access (R240). -/
inductive AccessKind where
  | read | write | atomic
deriving DecidableEq, Repr

/-- How a host read fails (R234). -/
inductive AerError where
  | completerAbort | unsupported | poisoned
deriving DecidableEq, Repr

/-- A host read that fails: the chunk of its copy (R231), and how (R234). -/
structure HostError where
  chunk : Nat
  kind : AerError
deriving DecidableEq, Repr

/-- A remote request as it reaches the home module (R362). `aop` is an atomic's operation (R254), 0x40 for a FLUSH;
`poison` lists the granules that a write leaves poisoned (R221). -/
structure RemoteReq where
  src : Nat
  tag : Nat
  kind : AccessKind
  addr : Nat
  len : Nat
  data : List Byte
  aop : Nat
  w64 : Bool
  cmp : U64
  poison : List Nat
deriving DecidableEq, Repr

/-- What a remote response brings (R362): bytes, and the granules of them that are poisoned (R221). -/
structure RespData where
  bytes : List Byte
  poison : List Nat
deriving DecidableEq, Repr

/-- A tile whose read cache takes its oldest fill (R224), or finds a parity error in a line (R219). -/
structure LineFill where
  tile : Nat
  parity : Option Nat
deriving DecidableEq, Repr

/-- What a patrol scrub read finds (R220). -/
inductive ScrubResult where
  | clean
  | corrected (bank row : Nat)
  | uncorrectable
deriving DecidableEq, Repr

/-- An identity flit's content (R355). -/
structure Identity where
  dev : Nat
  link : Nat
  prov : Nat
  dx : Nat
  dy : Nat
  dz : Nat
deriving DecidableEq, Repr

/-- Flit types of R347. -/
inductive FlitType where
  | idle | data | control | plumb | identity
  | reserved (n : Nat)
deriving DecidableEq, Repr

/-- A flit, by the header fields of R347 and its payload of 240 bytes. -/
structure Flit where
  type : FlitType
  vc : Nat
  cls : Bool
  seq : Nat
  ack : Nat
  cvc : Nat
  ccnt : Nat
  dest : Nat
  src : Nat
  first : Bool
  last : Bool
  poison : Bool
  detour : Bool
  dhop : Bool
  payload : List Byte
deriving DecidableEq, Repr

/-- What lane tests find at a link's training (R351, R352): good lanes as a 16-bit mask, whether the peer asks for
Strong FEC, and the measured asymmetry in 1/64 ns. -/
structure TrainResult where
  good : U16
  peerStrong : Bool
  asym : Int
deriving DecidableEq, Repr

/-- One entry of a route rewrite: destination coordinate `coord` of dimension `dim` goes the + way or the − way. -/
structure RouteEntry where
  dim : Nat
  coord : Nat
  plus : Bool
deriving DecidableEq, Repr

/-- Fuses that the test engine programs (R3, R428, R439, R452, R467): the life-cycle change of BLANK to TEST with what it
fuses, the identity, a bad tile, and a bad column of a tile. -/
inductive FuseOp where
  | toTest (rootHash passHash : List Byte) (svcKeys : List (List Byte))
  | identity (prov vendor iana : Nat)
  | badTile (t : Nat)
  | badColumn (t c : Nat)
deriving DecidableEq, Repr

/-- The test engine's private instructions (R438): internal scan with the bits shifted in, memory access, and fuse
programming. -/
inductive TestOp where
  | scan (tdi : List Bool)
  | read (addr len : Nat)
  | write (addr : Nat) (data : List Byte)
  | fuse (f : FuseOp)
deriving DecidableEq, Repr

/-- A manager role of R366. -/
inductive Role where
  | fabric | cell
deriving DecidableEq, Repr

/-- A module's report to its manager (R352, R359, R367, R372): its links' states, discovery classes, widths, lane groups,
retraining counts and exchange offsets, by link, and its Plumb state. -/
structure Report where
  src : Nat
  links : List Nat
  classes : List Nat
  widths : List Nat
  groups : List Nat
  retrains : List Nat
  offsets : List Int
  plumbAligned : Bool
  plumbDepth : Nat
deriving DecidableEq, Repr

/-- A collective chunk's number and content (R389, R390). -/
structure Chunk where
  gnum : Nat
  src : Nat
  opseq : Nat
  gdig : List Byte
  opdig : List Byte
  level : Nat
  segment : Nat
  plus : Bool
  hop : Nat
  index : Nat
  data : List Byte
deriving DecidableEq, Repr

/-- Cause of an abort notice (R394). -/
inductive NoticeCause where
  | linkLoss | collTimeout | peerAbort | groupMismatch | collMismatch
deriving DecidableEq, Repr

/-- A management message: interface (0 PF0, 1 I3C, 2 + n VFn), session, sequence and payload (R445). -/
structure Msg where
  iface : Nat
  session : Nat
  seq : Nat
  payload : List Byte
deriving DecidableEq, Repr

/-- Session roles (R446). -/
inductive SesRole where
  | owner | operator | service
deriving DecidableEq, Repr

/-- The proof a session opener sends (R446): a public key with a signature, or a passcode. -/
inductive Proof where
  | key (pub sig : List Byte)
  | passcode (code : List Byte)
deriving DecidableEq, Repr

/-- Fields named by SET_MODE (R453, R454); an absent field is not named. -/
structure ModeChange where
  clock : Option Nat
  pcap : Option Nat
  ecc : Option Nat
  fec : Option Nat
  rmin : Option Nat
  rmax : Option Nat
  tmin : Option Nat
  tmax : Option Nat
  persist : Bool
deriving DecidableEq, Repr

/-- Values of CAL_WRITE (R459), as differences from the factory values: gain in 0.01 %, offset in mW, thermal
offsets in 0.01 °C, transmit presets by lane, and a mode block. -/
structure CalValues where
  gain : Int
  offset : Int
  thermal : List Int
  presets : List (Nat × Nat)
  mode : Option ModeChange
deriving DecidableEq, Repr

/-- Life-cycle states (R437), in code order. -/
inductive LcState where
  | blank | test | provisioned | fieldReturn | retired
deriving DecidableEq, Repr

/-- Results of interface training (R418): each port's outcome. -/
structure TrainingResults where
  d2dOk : Bool
  hbmFail : Option Nat
  rowsUnrepairable : Option Nat
  rowsRepaired : List Nat
  links : List (Option TrainResult)
  linkIds : List (Option Identity)
deriving DecidableEq, Repr

/-- A BIST slice's scope and outcome (R421, R424). -/
inductive SliceResult where
  | die (d index : Nat) (pass : Bool)
  | hub (index : Nat) (pass : Bool)
  | column (tile : Nat) (failed : List Nat)
  | tile (tile : Nat) (pass : Bool)
deriving DecidableEq, Repr

/-- Known-answer outcomes (R430). -/
structure KatResults where
  columnFail : List (Nat × Nat)
  tileFail : List Nat
  hubFail : Option Nat
  meteringFail : Bool
  securityFail : Bool
deriving DecidableEq, Repr

/-- Which space a register write addresses: BAR0 of a function, or the SR-IOV capability's control (R291). -/
inductive RegSpace where
  | bar0
  | sriov
deriving DecidableEq, Repr

/-- The commands of the module. -/
inductive Instr where
  -- Fyrath cores
  | alu (c : CoreId) (op : AluOp) (w32 : Bool) (rd rs1 rs2 : Reg)
  | aluImmediate (c : CoreId) (op : AluOp) (w32 : Bool) (rd rs1 : Reg) (imm : U16)
  | lui (c : CoreId) (high : Bool) (rd : Reg) (imm : U16)
  | load (c : CoreId) (width : Nat) (vol sgn : Bool) (rd : Reg) (addr : U64)
  | store (c : CoreId) (width : Nat) (rs : Reg) (addr : U64)
  | branch (c : CoreId) (cond : BitVec 3) (rs1 rs2 : Reg) (off : BitVec 13)
  | jal (c : CoreId) (rd : Reg) (off : BitVec 21)
  | jalr (c : CoreId) (rd rs1 : Reg)
  | atomicSwap (a : AtomicArgs)
  | atomicCas (a : AtomicArgs)
  | atomicAdd (a : AtomicArgs)
  | atomicAnd (a : AtomicArgs)
  | atomicOr (a : AtomicArgs)
  | atomicXor (a : AtomicArgs)
  | atomicSmin (a : AtomicArgs)
  | atomicSmax (a : AtomicArgs)
  | atomicUmin (a : AtomicArgs)
  | atomicUmax (a : AtomicArgs)
  | atomicFadd (a : AtomicArgs)
  | atomicLoad (a : AtomicArgs)
  | fenceAcquire (c : CoreId) (sc : Scope)
  | fenceRelease (c : CoreId) (sc : Scope)
  | fenceFull (c : CoreId) (sc : Scope)
  | fp32Scalar (c : CoreId) (op : FpOp) (rd rs1 rs2 rs3 : Reg)
  | issue (c : CoreId) (rs1 rs2 : Reg) (res : BitVec 5) (op : BitVec 8) (eng : BitVec 3)
  | issueStallResume (c : CoreId)
  | tokwait (c : CoreId) (t : Fin 32)
  | toksig (c : CoreId) (t : Fin 32)
  | evsig (c : CoreId) (e : Nat) (v : U32)
  | evwait (c : CoreId) (e : Nat) (v : U32)
  | evwaitPoll (c : CoreId)
  | rdsys (c : CoreId) (rd : Reg) (i : Nat)
  | nextblk (c : CoreId) (rd : Reg)
  | call (c : CoreId) (rd : Reg) (entry : Nat)
  | trap (c : CoreId) (code : U16)
  | exit (c : CoreId)
  | coreWatchdog (c : CoreId)
  | coreEcc (c : CoreId)
  -- matrix unit, Patch test, Skim unit
  | matmul (t : Nat)
  | patchTestAudit (t : Nat)
  | convert (t : Nat)
  | flush (t : Nat)
  | adapt (t : Nat)
  | kvPut (t : Nat)
  -- vector unit: tile and stream V0 to V3
  | vopAdd (t v : Nat)
  | vopSub (t v : Nat)
  | vopMul (t v : Nat)
  | vopFma (t v : Nat)
  | vopMin (t v : Nat)
  | vopMax (t v : Nat)
  | vopAbs (t v : Nat)
  | vopNeg (t v : Nat)
  | copysign (t v : Nat)
  | cmpEq (t v : Nat)
  | cmpNe (t v : Nat)
  | cmpLt (t v : Nat)
  | cmpLe (t v : Nat)
  | cmpUnord (t v : Nat)
  | sel (t v : Nat)
  | classTest (t v : Nat)
  | int32Add (t v : Nat)
  | int32Sub (t v : Nat)
  | int32Mul (t v : Nat)
  | int32And (t v : Nat)
  | int32Or (t v : Nat)
  | int32Xor (t v : Nat)
  | int32Shl (t v : Nat)
  | int32Shr (t v : Nat)
  | int32Sar (t v : Nat)
  | int32Min (t v : Nat)
  | int32Max (t v : Nat)
  | cvt (t v : Nat)
  | cvtF2i (t v : Nat)
  | cvtI2f (t v : Nat)
  | rsum (t v : Nat)
  | rsumsq (t v : Nat)
  | rmax (t v : Nat)
  | rmin (t v : Nat)
  | bcast (t v : Nat)
  | func (t v : Nat)
  | softmax (t v : Nat)
  | osmStep (t v : Nat)
  | osmFinish (t v : Nat)
  | lnorm (t v : Nat)
  | rmsnorm (t v : Nat)
  | tblload (t v : Nat)
  | tableShadowSwap (t slot : Nat)
  | kvMask (t v : Nat)
  | kvPos (t v : Nat)
  -- DMA engines
  | copy (t e : Nat)
  | dmaTimeout (t e chunks : Nat)
  | hostDmaError (t e : Nat) (x : HostError)
  -- KV translator
  | kvPoolInit (t : Nat)
  | kvCreate (t : Nat)
  | kvFork (t : Nat)
  | kvReserve (t : Nat)
  | kvCommit (t : Nat)
  | kvTruncate (t : Nat)
  | kvFree (t : Nat)
  | kvPageRelease (pool : Nat)
  -- engine and tile completion: engine 0 KV, 1 MX, 2 SK, 3 to 6 V0 to V3, 7 and 8 DMA; for an abort, t = 168 names
  -- the hub engines by their GROUP codes (R269)
  | engineComplete (t e : Nat)
  | engineAbort (t e : Nat)
  | enginePreemptionStop (t e : Nat)
  | tileFaultReport (t : Nat)
  | tileShareEnd (t : Nat)
  | completionTokenCombine (router q seq : Nat)
  -- queues, launches, completion
  | queueCreate (fn q : Nat)
  | queueDestroy (fn q : Nat)
  | queueAbort (fn q : Nat)
  | abortFinish (q : Nat)
  | destroyFinish (q : Nat)
  | destroyEscalation (q : Nat)
  | qdbTail (fn q : Nat) (v : U32)
  | qdbCqhead (fn q : Nat) (v : U32)
  | recordFetch (q : Nat)
  | launchWaitsMet (q seq : Nat)
  | launchDispatch (q seq : Nat)
  | hubRecordHandoff (q seq : Nat)
  | timedStagingOpen (q seq : Nat)
  | timedCoreStart (t c : Nat)
  | tileLaunchEntry (t : Nat)
  | programMulticast (t : Nat)
  | collectorToken (q seq src : Nat)
  | launchCollected (q seq : Nat)
  | evSignal (fn : Nat) (v : U32)
  | evErrClear (fn e : Nat) (v : U32)
  -- access tables, memory protection, remote accesses
  | actSyncGo
  | actSyncDrainDone
  | patrolScrub (addr : Nat) (r : ScrubResult)
  | cacheLineFill (f : LineFill)
  | remoteRequest (r : RemoteReq)
  | remoteResponse (home tag status : Nat) (x : RespData)
  | fabricTimeout (home tag : Nat)
  -- partitions and metering
  | partEnable (p : Nat)
  | partDisable (p : Nat)
  | partDrain (p : Nat)
  | functionLevelReset (fn : Nat)
  | vfEnableClear
  | drainHardStop (p : Nat)
  | hardStopTimeout (p : Nat)
  | drainRevokeScrub (p : Nat)
  | partitionHbmScrubDone (p : Nat)
  | meterIntervalBoundary (eMod peakW : Nat) (adcBad : Bool)
  | meterRecordSign
  | meterAck (v : U32)
  | meterSel (fn : Nat) (v : U32)
  -- front-end network
  | arpRequest (port vlan : Nat) (ip mac : List Byte)
  | neighborSolicitation (port vlan : Nat) (ip mac : List Byte)
  | icmpEcho (port vlan : Nat) (ip mac payload : List Byte)
  | frameDrop (port : Nat)
  | rdmaWrite (qp key va : Nat) (data : List Byte)
  | rdmaWriteWithImmediate (qp key va : Nat) (data : List Byte) (imm : U32)
  | rdmaRead (qp key va len : Nat)
  | send (qp : Nat) (data : List Byte)
  | sendWithImmediate (qp : Nat) (data : List Byte) (imm : U32)
  | rdmaAcknowledgement (qp : Nat)
  | ecnMarkedPacket (qp : Nat)
  | congestionNotification (qp : Nat)
  | rateRecovery (qp : Nat)
  | pfcPause (port prio : Nat) (on : Bool)
  | qpCreate (fn : Nat)
  | qpModify (fn : Nat)
  | qpDestroy (fn : Nat)
  | netSrctabReread (port : Nat) (v : U32)
  -- NVMe over Fabrics
  | nvmeofConnect (q seq : Nat) (accepted : Bool) (blockLog mdts : Nat)
  | nvmeofRead (q seq : Nat)
  | nvmeofWrite (q seq : Nat)
  | nvmeofDisconnect (q seq : Nat)
  | nvmeCommandCompletion (ctl cid : Nat) (status : U16) (data : List Byte)
  | nvmeTimeout (ctl cid : Nat)
  | keepAlive (ctl : Nat)
  -- resident serving and sampling
  | serveStart (fn : Nat)
  | serveStop (fn : Nat)
  | serveUpdate (fn : Nat)
  | serviceStepForm (p : Nat)
  | serviceStepFinish (p : Nat)
  | reserveExhaustedRetry (p : Nat)
  | draftFailureRetry (p : Nat)
  | sample (q seq : Nat)
  -- Jothen links, routing, managers
  | linkTraining (i : Nat) (r : TrainResult)
  | identityFlit (i : Nat) (id : Identity)
  | flitReceive (i : Nat) (flit : List Byte)
  | linkNak (i lastGood : Nat)
  | frameLockLoss (i : Nat)
  | ackTimeout (i : Nat)
  | linkRetryTimer (i : Nat)
  | idleCreditReturn (i : Nat)
  | release (i : Nat) (id : Identity)
  | routeRewrite (at_ : Nat) (rs : List RouteEntry)
  | linkDisable (i : Nat)
  | managerHeartbeat (r : Role)
  | heartbeatMiss (r : Role)
  | managerReport (r : Report)
  -- Plumb time and power shaping
  | plumbExchange (i : Nat)
  | plumbExchangeFlit (i : Nat) (t1 t2 t3 t4 : Int) (depth : Nat) (aligned : Bool) (parentDev : Nat)
  | timePps
  | timeTod (msg : List Byte)
  | plumbHoldoverExpiry
  | grandmasterTakeover
  | powerRampStart (q seq drawW : Nat)
  | fillerRelease (drawW : Nat)
  -- collectives
  | groupCreate (q seq : Nat)
  | feedIdResponse (gnum member feed : Nat)
  | feedQueryTimeout (gnum : Nat)
  | groupDestroy (q seq : Nat)
  | groupRemap (q seq : Nat)
  | groupRemapApply
  | allReduce (q seq : Nat)
  | reduceScatter (q seq : Nat)
  | allGather (q seq : Nat)
  | broadcast (q seq : Nat)
  | allToAll (q seq : Nat)
  | collectiveChunk (c : Chunk)
  | chunkAck (gnum opseq peer : Nat)
  | chunkResend (gnum opseq : Nat)
  | linkLoss (gnum : Nat)
  | collTimeout (gnum : Nat)
  | abortNotice (gnum opseq : Nat) (cause : NoticeCause)
  -- snapshots and recovery
  | snapCopy (q seq : Nat)
  | snapSend (q seq : Nat)
  | snapshotStream (gnum step rank len : Nat) (digest data : List Byte)
  | parityAck (gnum step parity : Nat)
  | stepRecord (q seq : Nat)
  | reconstruct (q seq : Nat) (slots : List (Nat × List Byte))
  | restore (q seq : Nat)
  | snapTauUpdate (tauMs at_ : Nat)
  | moduleLossReport (dev : Nat)
  -- power, pins and clocks
  | pwrEnAssert
  | pwrGoodAssert (railsOk : Bool)
  | pwrEnDeassert
  | pwrEnHoldExpiry
  | vinUndervoltage (mv : Nat)
  | vinOvervoltage (mv : Nat)
  | modResetNAssert (ns : Nat)
  | modResetNDeassert
  | perstNAssert
  | perstNDeassert
  | thermalAlert (sensor : Nat) (centiC : Int)
  | thermalThrottle (sensor : Nat) (centiC : Int)
  | thermalTrip (sensor : Nat) (centiC : Int)
  | thermTripRelease
  | d2dPortFailure (port : Nat)
  | clockGlideEnd
  -- bring-up
  | bringupStart (romOk fusesOk : Bool)
  | configurationVerify
  | interfaceTraining (r : TrainingResults)
  | bistSlice (r : SliceResult)
  | hbmMarchTest (failed : Option Nat) (repaired : List Nat)
  | thermalPause (hottestCentiC : Int) (elapsedMs : Nat)
  | reconciliation
  | firmwareDelivery (crcFail : List CoreId)
  | knownAnswerRun (r : KatResults)
  | loadRun (tileFail : List Nat)
  | bringupOutcome (ms : Nat)
  | bringupWatchdog
  | recovWriteChunk
  | recovCommit
  | deferredReset
  -- management sessions
  | getCerts (m : Msg)
  | getAttest (m : Msg)
  | openChallenge (m : Msg) (r : SesRole)
  | openResponse (m : Msg) (r : SesRole) (pf : Proof)
  | close (m : Msg)
  | readMode (m : Msg)
  | setMode (m : Msg) (chg : ModeChange)
  | readTelem (m : Msg)
  | meterRead (m : Msg) (recSeq : Nat)
  | imageBegin (m : Msg)
  | imageWrite (m : Msg) (off : Nat)
  | imageCommit (m : Msg)
  | calWrite (m : Msg) (v : CalValues)
  | restoreFactory (m : Msg)
  | reset (m : Msg)
  | enrollOwner (m : Msg) (newKey token : List Byte)
  | lcTransition (m : Msg) (target : LcState)
  | testUnlock (m : Msg)
  | flogClear (m : Msg)
  | nonceExpiry (iface : Nat)
  | sessionIdleTimeout (session : Nat)
  -- management bus
  | entdaa (addr : Nat) (won : Bool)
  | rstdaa
  | setEndpointId (eid : Nat)
  | getTid
  | getPldmVersion (type : Nat)
  | getPldmTypes
  | getPldmCommands (type : Nat)
  | getPdr (handle : Nat)
  | getSensorReading (id : Nat)
  | getStateSensorReadings (id : Nat)
  -- JTAG
  | bypass
  | idcode
  | samplePreload (boundary : List Bool)
  | extest
  | extestPulse
  | extestTrain
  | testEngineInstruction (op : TestOp)
  -- registers and pins without a row of their own
  | counterReadClear (fn off : Nat)
  | counterLowWordRead (fn off : Nat)
  | registerWrite (sp : RegSpace) (fn off width : Nat) (v : U32)
  | switchOnThreshold (mv : Nat)
  | inputControllerPowerOff
  | pfBar2DebugWindowAccess (addr : Nat) (len : Nat) (wdata : Option (List Byte))
  | pcieAtomicopRequest (fn : Nat) (addr : Nat)
  | powerCapHold (drawW mhz : Nat)
  | qpAckTimeOut (qp : Nat)
deriving DecidableEq, Repr

end Sys2Proof
end

