-- ==== Sys2Proof/Machine/Fp.lean ====
section
/-! DEFINITION. Exact floating-point arithmetic. A value is a NaN, an infinity, or a sign with an exact magnitude
`n / d`; every operation is exact, and one rounding function (nearest, ties to even, R122) turns a value into the
bits of a format (R44, R49, R50). Bit patterns are natural numbers. -/

namespace Sys2Proof.Machine

/-- The value a bit pattern stands for: a finite value is a sign and the magnitude `n / d`. -/
inductive FVal where
  | nan
  | inf (neg : Bool)
  | fin (neg : Bool) (n d : Nat)
deriving DecidableEq, Repr

/-- A floating-point layout: fraction bits `m`, exponent bits `e`, and the weight `2^-u` of the least subnormal.
`hasInf` tells whether an all-ones exponent holds infinity and NaNs; `nanMant` is the mantissa that alone is NaN
when it does not (E4M3), and `maxCode` the largest finite magnitude code. -/
structure FLayout where
  m : Nat
  e : Nat
  u : Nat
  hasInf : Bool
  nanOnly : Bool
  maxCode : Nat
  nanCode : Nat
deriving DecidableEq, Repr

/-- Binary32 (R44). -/
def layFP32 : FLayout := ⟨23, 8, 149, true, false, 0x7F7FFFFF, 0x7FC00000⟩
/-- BF16, the top 16 bits of binary32 (R44). -/
def layBF16 : FLayout := ⟨7, 8, 133, true, false, 0x7F7F, 0x7FC0⟩
/-- Binary16 (R44). -/
def layFP16 : FLayout := ⟨10, 5, 24, true, false, 0x7BFF, 0x7E00⟩
/-- FP8 E4M3 (R49): no infinity, NaN only at mantissa 111. -/
def layE4M3 : FLayout := ⟨3, 4, 9, false, true, 0x7E, 0x7F⟩
/-- FP8 E5M2 (R49). -/
def layE5M2 : FLayout := ⟨2, 5, 16, true, false, 0x7B, 0x7E⟩
/-- FP4 E2M1 (R50): every code a number. -/
def layE2M1 : FLayout := ⟨1, 2, 1, false, false, 0x7, 0x0⟩

/-- The sign bit's weight in a layout. -/
def FLayout.signBit (l : FLayout) : Nat := 2 ^ (l.m + l.e)

/-- The value of a bit pattern (R44, R49, R50); every NaN loses its payload (R46), subnormals are exact (R45). -/
def decodeF (l : FLayout) (c : Nat) : FVal :=
  let neg := bit c (l.m + l.e)
  let mag := c % l.signBit
  let ex := mag / 2 ^ l.m
  let fr := mag % 2 ^ l.m
  if l.hasInf && ex == 2 ^ l.e - 1 then (if fr = 0 then .inf neg else .nan)
  else if l.nanOnly && mag == l.nanCode then .nan
  else if ex = 0 then .fin neg fr (2 ^ l.u)
  else .fin neg ((2 ^ l.m + fr) * 2 ^ (ex - 1)) (2 ^ l.u)

/-- `a / b` rounded to the nearest integer, ties to even. -/
def rne (a b : Nat) : Nat :=
  let q := a / b
  let r := a % b
  if 2 * r < b then q else if b < 2 * r then q + 1 else q + q % 2

/-- The magnitude code nearest to `n / d` in a layout, ties to even, with no upper bound applied. -/
def roundMag (l : FLayout) (n d : Nat) : Nat :=
  let x := n * 2 ^ l.u
  let q := x / d
  if q < 2 ^ (l.m + 1) then rne x d
  else
    let s := Nat.log2 q - l.m
    rne x (d * 2 ^ s) + s * 2 ^ l.m

/-- The bits of a value in a layout with infinities: one rounding, overflow to infinity, subnormals kept, the
canonical NaN (R46, R48, R79, R122). -/
def encodeF (l : FLayout) : FVal → Nat
  | .nan => l.nanCode
  | .inf neg => b2n neg * l.signBit + (2 ^ l.e - 1) * 2 ^ l.m
  | .fin neg n d =>
    let c := roundMag l n d
    let c := if l.maxCode < c then (2 ^ l.e - 1) * 2 ^ l.m else c
    b2n neg * l.signBit + c

/-- The value of FP32 bits. -/
def f32 (c : Nat) : FVal := decodeF layFP32 c

/-- FP32 bits of a value. -/
def toF32 (v : FVal) : Nat := encodeF layFP32 v

/-- Signed numerator of a finite value over its own denominator. -/
def sgn (neg : Bool) (n : Nat) : Int := if neg then -(n : Int) else (n : Int)

def FVal.isNan : FVal → Bool
  | .nan => true
  | _ => false

def FVal.isInf : FVal → Bool
  | .inf _ => true
  | _ => false

def FVal.isFin : FVal → Bool
  | .fin _ _ _ => true
  | _ => false

def FVal.isZero : FVal → Bool
  | .fin _ n _ => n == 0
  | _ => false

def FVal.isNeg : FVal → Bool
  | .nan => false
  | .inf s => s
  | .fin s _ _ => s

def FVal.neg : FVal → FVal
  | .nan => .nan
  | .inf s => .inf (!s)
  | .fin s n d => .fin (!s) n d

def FVal.abs : FVal → FVal
  | .nan => .nan
  | .inf _ => .inf false
  | .fin _ n d => .fin false n d

/-- Exact sum (R79): opposite infinities give NaN; an exact zero of opposite-sign operands is +0. -/
def FVal.add : FVal → FVal → FVal
  | .nan, _ => .nan
  | _, .nan => .nan
  | .inf a, .inf b => if a = b then .inf a else .nan
  | .inf a, .fin _ _ _ => .inf a
  | .fin _ _ _, .inf b => .inf b
  | .fin a n d, .fin b k e =>
    let x : Int := if d = e then sgn a n + sgn b k else sgn a n * e + sgn b k * d
    let den := if d = e then d else d * e
    if x = 0 then .fin (a && b) 0 den else .fin (decide (x < 0)) x.natAbs den

/-- Exact product; infinity times zero is NaN. -/
def FVal.mul : FVal → FVal → FVal
  | .nan, _ => .nan
  | _, .nan => .nan
  | .inf a, .inf b => .inf (xor a b)
  | .inf a, .fin b n _ => if n = 0 then .nan else .inf (xor a b)
  | .fin a n _, .inf b => if n = 0 then .nan else .inf (xor a b)
  | .fin a n d, .fin b k e => .fin (xor a b) (n * k) (d * e)

/-- Exact quotient, by the rules of binary32 division (R145). -/
def FVal.div : FVal → FVal → FVal
  | .nan, _ => .nan
  | _, .nan => .nan
  | .inf _, .inf _ => .nan
  | .inf a, .fin b _ _ => .inf (xor a b)
  | .fin a _ _, .inf b => .fin (xor a b) 0 1
  | .fin a n d, .fin b k e =>
    if k = 0 then (if n = 0 then .nan else .inf (xor a b)) else .fin (xor a b) (n * e) (d * k)

def FVal.sub (x y : FVal) : FVal := x.add y.neg

/-- `x * y + z`, exact. -/
def FVal.fma (x y z : FVal) : FVal := (x.mul y).add z

/-- Multiply a finite value by a power of two, exactly. -/
def FVal.scale2 (k : Int) : FVal → FVal
  | .fin s n d => if 0 ≤ k then .fin s (n * 2 ^ k.toNat) d else .fin s n (d * 2 ^ (-k).toNat)
  | v => v

/-- Order of two values that are not NaN; the zeros are equal. -/
def FVal.lt : FVal → FVal → Bool
  | .inf a, .inf b => a && !b
  | .inf a, .fin _ _ _ => a
  | .fin _ _ _, .inf b => !b
  | .fin a n d, .fin b k e => decide (sgn a n * e < sgn b k * d)
  | _, _ => false

/-- Equality as numbers; the zeros are equal and a NaN equals nothing (R122). -/
def FVal.eq (x y : FVal) : Bool :=
  if x.isNan || y.isNan then false else !x.lt y && !y.lt x

/-- MIN of R122: the canonical NaN when either is NaN, and −0 below +0. -/
def FVal.min (x y : FVal) : FVal :=
  if x.isNan || y.isNan then .nan
  else if x.lt y then x else if y.lt x then y
  else if x.isNeg then x else y

/-- MAX of R122. -/
def FVal.max (x y : FVal) : FVal :=
  if x.isNan || y.isNan then .nan
  else if x.lt y then y else if y.lt x then x
  else if x.isNeg then y else x

/-- Binary32 operations on bits, one rounding each (R79, R122). -/
def fadd (a b : Nat) : Nat := toF32 ((f32 a).add (f32 b))
def fsub (a b : Nat) : Nat := toF32 ((f32 a).sub (f32 b))
def fmul (a b : Nat) : Nat := toF32 ((f32 a).mul (f32 b))
def ffma (a b c : Nat) : Nat := toF32 ((f32 a).fma (f32 b) (f32 c))
def fdiv (a b : Nat) : Nat := toF32 ((f32 a).div (f32 b))
def fmax (a b : Nat) : Nat := toF32 ((f32 a).max (f32 b))
def fmin (a b : Nat) : Nat := toF32 ((f32 a).min (f32 b))

/-- An integer as a value. -/
def FVal.ofInt (x : Int) : FVal := .fin (decide (x < 0)) x.natAbs 1

/-- The value nearest an integer, ties to even, as an integer; 0 for a NaN, and saturated at the INT32 limits
(R124). -/
def toInt32 : FVal → Int
  | .nan => 0
  | .inf true => -(2 ^ 31)
  | .inf false => 2 ^ 31 - 1
  | .fin s n d =>
    let x := sgn s (rne n d)
    if x < -(2 ^ 31) then -(2 ^ 31) else if 2 ^ 31 - 1 < x then 2 ^ 31 - 1 else x

/-- Two's complement reading of the low `w` bits of a pattern. -/
def signedOf (w c : Nat) : Int :=
  let x := c % 2 ^ w
  if 2 ^ (w - 1) ≤ x then (x : Int) - 2 ^ w else (x : Int)

/-- Two's complement pattern of `w` bits. -/
def patternOf (w : Nat) (x : Int) : Nat := (x % (2 ^ w : Int)).toNat

/-- ⌊log2 (n / d)⌋ for a positive ratio. -/
def floorLog2 (n d : Nat) : Int :=
  let a := (Nat.log2 n : Int) - (Nat.log2 d : Int)
  -- a or a - 1: test 2^a ≤ n / d
  if 0 ≤ a then (if d * 2 ^ a.toNat ≤ n then a else a - 1)
  else (if d ≤ n * 2 ^ (-a).toNat then a else a - 1)

/-- ⌈log2 (n / d)⌉ for a positive ratio. -/
def ceilLog2 (n d : Nat) : Int :=
  let f := floorLog2 n d
  let exact := if 0 ≤ f then decide (d * 2 ^ f.toNat = n) else decide (d = n * 2 ^ (-f).toNat)
  if exact then f else f + 1

/-- Hold an integer within bounds. -/
def clampI (lo hi x : Int) : Int := if x < lo then lo else if hi < x then hi else x

/-- FP32 bits of +0, 1.0 and the infinities. -/
def f32One : Nat := 0x3F800000
def f32PosInf : Nat := 0x7F800000
def f32NegInf : Nat := 0xFF800000
def f32Nan : Nat := 0x7FC00000

end Sys2Proof.Machine
end

