-- ==== Sys2Proof/Config.lean ====
section
/-! DEFINITION. What an implementation fixes and what the spec leaves open: constants without a body, so that no
proof can see their values and every claim holds whatever they are. -/

namespace Sys2Proof.Config

/-- A byte that the spec leaves undefined (an aborted destination, R91, R287); applied to the free-value counter. -/
opaque freeByte : Nat → Byte
/-- A 64-bit word that the spec leaves open; applied to the free-value counter. -/
opaque freeWord : Nat → U64
/-- The result of a division that R180 states no value for (divisor 0, quotient overflow). -/
opaque divCorner : (signed w32 : Bool) → (a b : U64) → U64
/-- The word that a comparison writes (R179, R180), which the spec does not state for the scalar cores; `fp` tells
FP32 comparisons from integer compare-set. -/
opaque truthWord : (fp result : Bool) → U64
/-- The partition whose work a hub core does (R236), chosen by hub firmware. -/
opaque hubCoreWork : Nat → Nat
/-- Watchdog limit of hub cores in ms (R206), set by hub firmware. -/
opaque hubWdogMs : Nat
/-- Built-in special-function segments (R129, R131): function code, side, binade and segment to C0, C1, C2, Q. The
spec gives their layout and bounds and not their values. -/
opaque sfuEntry : (code side : Nat) → (binade : Int) → (seg : Nat) → Int × Int × Int × Int
/-- Segments of the Reloa tables (R150), which the spec does not list. -/
opaque reloaEntry : (code side : Nat) → (binade : Int) → (seg : Nat) → Int × Int × Int × Int
/-- Falcon-1024 verification (R440) of a signature over a message under a public key. -/
opaque falconVerify : (pub msg sig : List Byte) → Bool
/-- Falcon-1024 signing: key 0 device identity, key 1 metering, key 2 the Eloapel root (R440). -/
opaque falconSign : (key : Nat) → (msg : List Byte) → List Byte
/-- The security processor's entropy source (R446), drawn at a count. -/
opaque entropy : Nat → List Byte
/-- IDLE_W, the factory-calibrated idle power of a clock mode, where the metering block's calibration lists none (R304,
R308). -/
opaque idleW : Nat → Nat
/-- Arithmetic cycles that a partition's tiles ran launches since the last attribution (R311), applied to a count and
partition. -/
opaque activeCycles : Nat → Nat → Nat
/-- The STATUS code of a Patch event in an error log (R302), which R476 does not list. -/
opaque patchEventCode : BitVec 16
/-- Whether a SerDes transmit preset lies within the factory range of a lane (R459). -/
opaque presetOk : (lane value : Nat) → Bool
/-- The vendor's JEDEC manufacturer identity, 11 bits (R438). -/
opaque jedecId : Nat
/-- What hub firmware puts into the records that it submits for a step of serving without a template (R338): 0 reserve,
3 sampling, 4 commit, by the step's partition and entry count; hub firmware is not given. Their program address, tile
group and grid, and constant block. -/
opaque serviceProgram : (kind part : Nat) → Nat
opaque serviceGrid : (kind part entries : Nat) → Nat × Nat × Nat × Nat
opaque serviceConst : (kind part entries : Nat) → List Byte
/-- The events that hub firmware uses between a step's launches (R338), by record kind. -/
opaque serviceEvent : (kind : Nat) → Nat
/-- Offsets in a service's work area (R332), whose layout the spec does not give: 0 Stencil table, 1 input tokens,
2 parameters, 3 sampling output, 4 adapter runs, 5 logits, 6 acceptance array. -/
opaque serviceWork : (part array : Nat) → Nat
/-- Bytes of a step's adapter runs (R331, R338) for their values: adapter, first batch row and rows of each run. -/
opaque adapterRuns : (values : List Nat) → List Byte
/-- Virtual base and page-table address that hub firmware gives the region of a table index (R332, R338). -/
opaque serviceVbase : (part index : Nat) → Nat
opaque serviceTable : (part index : Nat) → Nat
/-- PLDM response bytes of a command and its values (R452, R457): DSP0240 and DSP0248 give their form and the module's
identity values, which the spec does not repeat. -/
opaque pldmReply : (cmd : Nat) → (values : List Int) → List Byte
/-- Payload bytes of a session response whose layout the spec does not give, by command code and values. -/
opaque payload : (cmd : Nat) → (values : List Int) → List Byte
/-- Bytes of the user calibration region for its values (R413), whose layout the spec does not give. -/
opaque ucalBytes : (values : List Int) → List Byte
/-- The role byte that an OPEN_RESPONSE signature covers (R446), whose encoding the spec does not give. -/
opaque roleByte : (role : Nat) → Byte
/-- The public key of a key that provisioning generates (R439, R441): 1 device identity, 2 metering, by provisioned ID. -/
opaque publicKey : (type prov : Nat) → List Byte
/-- Whether a firmware package's header has the magic value of the Reloa format (R209), which the spec does not state. -/
opaque reloaPackage : (package : List Byte) → Bool
/-- The directory entry of a class in a firmware package of the native format (R208): the image that its offset and length
give, and its CRC-32; classes 0 to 7 are the tile streams, 8 the hub core. The spec does not give the directory's byte
layout. -/
opaque fwImage : (cls : Nat) → (package : List Byte) → List Byte
opaque fwCrc : (cls : Nat) → (package : List Byte) → Nat
/-- The one image of a package of the Reloa format (R209). -/
opaque fwReloa : (package : List Byte) → List Byte
/-- Payload bytes of a packet or link message between modules (R347), by its kind, its values and its data: the spec lays
out the flit and not what a packet's payload holds. -/
opaque packetBytes : (kind : String) → (values : List Nat) → (data : List Byte) → List Byte
/-- The arithmetic clock in MHz at which the power-cap controller holds (R36, R495), applied to the counter. -/
opaque heldClock : Nat → Nat
/-- Mean power that the module measured over a launch (R376), applied to a count. -/
opaque meanPower : Nat → Nat

/-- Where in a die's shared store the dispatcher places group event blocks (R197), which the spec leaves to it. -/
opaque eventArena : (die : Nat) → Nat

end Sys2Proof.Config
end

