-- ==== Sys2Proof/Machine/Map.lean ====
section
/-! DEFINITION. Sparse maps in one canonical form: a list of (key, value) pairs with strictly rising keys in
which no value equals the default that an unlisted key reads as. Memories, register files and every numbered
bank of the module are kept so, and equal maps are therefore equal data. -/

namespace Sys2Proof.Machine

/-- A sparse map; the default is given at each use. -/
abbrev SMap (α : Type) := List (Nat × α)

/-- The value at a key: the listed one, else the default. -/
def SMap.get {α : Type} (d : α) : SMap α → Nat → α
  | [], _ => d
  | (k, v) :: r, a => if k = a then v else SMap.get d r a

/-- Remove a key: every pair that lists it. -/
def SMap.erase {α : Type} (m : SMap α) (a : Nat) : SMap α := m.filter (fun c => c.1 ≠ a)

/-- Insert a pair at its place in the key order, replacing an equal key. -/
def SMap.insert {α : Type} : SMap α → Nat → α → SMap α
  | [], a, x => [(a, x)]
  | (k, v) :: r, a, x =>
    if a < k then (a, x) :: (k, v) :: r
    else if a = k then (a, x) :: r
    else (k, v) :: SMap.insert r a x

/-- Write a value; writing the default removes the key, so the form stays canonical. -/
def SMap.set {α : Type} [DecidableEq α] (d : α) (m : SMap α) (a : Nat) (x : α) : SMap α :=
  if x = d then SMap.erase m a else SMap.insert m a x

/-- Change the value at a key. -/
def SMap.modify {α : Type} [DecidableEq α] (d : α) (m : SMap α) (a : Nat) (f : α → α) : SMap α :=
  SMap.set d m a (f (SMap.get d m a))

/-- Drop every key of `[lo, hi)`: those keys then read the default. -/
def SMap.clear {α : Type} (m : SMap α) (lo hi : Nat) : SMap α :=
  m.filter (fun c => c.1 < lo || hi ≤ c.1)

/-- Keys rise strictly from `lo` on and no value is the default. -/
def SMap.wfFrom {α : Type} [DecidableEq α] (d : α) : Nat → SMap α → Bool
  | _, [] => true
  | lo, (k, v) :: r => decide (lo ≤ k) && decide (v ≠ d) && SMap.wfFrom d (k + 1) r

/-- The canonical form. -/
def SMap.wf {α : Type} [DecidableEq α] (d : α) (m : SMap α) : Bool := SMap.wfFrom d 0 m

end Sys2Proof.Machine
end

