-- ==== Sys2Proof/Machine/State.lean ====
section
/-! DEFINITION. The state of the module as plain data: the data plane (memory, tiles, queues, partitions and hub
engines), the management plane (pins, power, fuses, flash, bring-up, sessions, management bus, JTAG), the fabric
(links, routing, managers, Plumb time, power shaping), and the queue of commands that are waiting. Numbered banks
are sparse maps (Machine/Map.lean): a key that is not listed holds the bank's reset value, named beside it. -/

namespace Sys2Proof.Machine

/-- No step ends in a fault: every fault of the spec is a status, a log entry or a pin of the module, which are
state. Nothing raises it; it is safe. -/
inductive Fault where
deriving DecidableEq, Repr

/-- Why a command has no meaning in the model. -/
inductive Refusal where
  /-- Raised by an arm of `exec` whose row has no meaning yet. Safe: nothing is claimed of it. -/
  | notModelled (mnemonic : String)
deriving DecidableEq, Repr

/-! ### Memory -/

/-- An access-table entry (R237): first and last 4 KiB page and the rights. -/
structure AclEntry where
  v : Bool
  r : Bool
  w : Bool
  a : Bool
  base : Nat
  limit : Nat
deriving DecidableEq, Repr

def AclEntry.none : AclEntry := ⟨false, false, false, false, 0, 0⟩

/-- The memories and their protection. -/
structure MemSys where
  /-- Device memory by 48-bit address: HBM, shared stores, tile stores (R210). Unlisted bytes read 0 (R218, R422). -/
  dev : List Host.Cell
  /-- Host memory as the module reaches it over PCIe (R234). Unlisted bytes read 0. -/
  host : List Host.Cell
  /-- 64-byte pieces of host memory last written by a TLP with the EP bit set (R221), by address divided by 64. -/
  hostEp : SMap Bool
  /-- 4 KiB pages of host memory that the host's IOMMU refuses to a function (R234), by function × 2^52 + page. The
  host's, not the module's. -/
  hostRefused : SMap Bool
  /-- Memory of other modules as hub engines reach it over the fabric (R212, R213), by device ID × 2^48 + local address.
  Unlisted bytes read 0. -/
  far : List Host.Cell
  /-- 4 KiB pages of other modules that their home refuses (R212, R238), keyed like `far` divided by 4096. -/
  farRefused : SMap Bool
  /-- Poisoned 64-byte granules of device memory, by granule number (R221). -/
  poison : SMap Bool
  /-- Access tables, by class, target and index (R237). -/
  acl : SMap AclEntry
  /-- ACT_SYNC.BUSY (R239). -/
  syncBusy : Bool
deriving DecidableEq, Repr

/-! ### Tiles -/

/-- An engine issue-queue entry (R185): operation, descriptor bytes, tokens, index in its stream, and whether its
wait tokens have been taken (R193). -/
structure QEntry where
  op : Nat
  desc : List Byte
  wa : Option Nat
  wb : Option Nat
  sig : Option Nat
  index : Nat
  granted : Bool
deriving DecidableEq, Repr

/-- One request of a COPY: source, destination, length, and its offset within its row (R231). -/
structure CopyReq where
  src : Nat
  dst : Nat
  n : Nat
  off : Nat
deriving DecidableEq, Repr

/-- A write of a running instruction, within one aligned 64-byte granule (R252): to host memory or to device memory, its
address and bytes, whether it carries poison (R221), and the number of the free value that says whether a reader sees it
before the instruction completes. -/
structure EWrite where
  host : Bool
  addr : Nat
  data : List Byte
  bad : Bool
  key : Nat
deriving DecidableEq, Repr

/-- The instruction an engine runs: its entry, the byte ranges that an abort leaves undefined (R91, R287), the remote
requests that it still waits for, its local writes by chunk (R231; an instruction other than COPY has one chunk), whether
a reader before completion sees undefined data (R90), how many chunks it has begun, the chunks of a COPY that it has yet
to issue, and the LOCK words that it holds (R162). -/
structure Running where
  entry : QEntry
  undef : List (Nat × Nat)
  remote : Nat
  writes : List (List EWrite)
  hidden : Bool
  begun : Nat
  todo : List (List CopyReq)
  locks : List Nat
deriving DecidableEq, Repr

/-- One engine of a tile with its issue queue (R178). `stopping` is set from an abort until the preemption point. -/
structure Engine where
  queue : List QEntry
  run : Option Running
  stopping : Bool
deriving DecidableEq, Repr

def Engine.init : Engine := ⟨[], none, false⟩

/-- What a core is doing (R179, R193, R197, R202, R280). -/
inductive CoreStatus where
  | idle
  | armed
  | running
  | issueStall (engine : Nat)
  | tokWait (t : Nat)
  | evWait (e v : Nat)
  | remoteWait (tag : Nat) (rd : Reg) (bytes : Nat) (sgn acq : Bool)
  | exited
  | faulted
deriving DecidableEq, Repr

/-- A Fyrath core (R179): registers x1 to x31 (x0 is never listed), program counter, private memory by window
offset (R183), issue and NEXTBLK counts, and the Plumb time at which its watchdog last restarted (R206). -/
structure Core where
  regs : SMap U64
  pc : Nat
  mem : List Host.Cell
  st : CoreStatus
  issued : Nat
  nextBlk : Nat
  wdStart : Nat
deriving DecidableEq, Repr

def Core.init : Core := ⟨[], 0, [], .idle, 0, 0, 0⟩

/-- A Skim statistics slot (R103). -/
structure SkimSlot where
  count : Nat
  sat : Nat
  nan : Nat
  inf : Nat
  amax : Nat
  err0 : Nat
  errUp : Nat
  errDn : Nat
deriving DecidableEq, Repr

def SkimSlot.init : SkimSlot := ⟨0, 0, 0, 0, 0, 0, 0, 0⟩

/-- A user special-function table (R135): segment bits, symmetry, monotonicity, binade bounds of both sides, the
eight tail constants (FP32 bits: positive low T0 T1, high T0 T1, then negative), and the entries C0, C1, C2, Q. -/
structure SfuTable where
  s : Nat
  sym : Nat
  mono : Nat
  eminP : Int
  emaxP : Int
  eminN : Int
  emaxN : Int
  tails : List Nat
  entries : List (Int × Int × Int × Int)
deriving DecidableEq, Repr

/-- A user table slot with its shadow copy (R140). -/
structure TableSlot where
  cur : Option SfuTable
  shadow : Option SfuTable
deriving DecidableEq, Repr

def TableSlot.init : TableSlot := ⟨none, none⟩

/-- A 128-byte line of the tile read cache (R224). -/
structure CacheLine where
  line : Nat
  data : List Byte
deriving DecidableEq, Repr

/-- A line fill in flight: `dropped` once an invalidation has met it (R224). -/
structure Fill where
  line : Nat
  data : List Byte
  dropped : Bool
deriving DecidableEq, Repr

/-- First fault of the tile in the current command (R203, R207, R503). -/
structure FaultRec where
  status : Nat
  stream : Nat
  index : Nat
  pc : Nat
  addr : Nat
  plumb : Nat
deriving DecidableEq, Repr

/-- Where a tile stands in a launch (R200, R202, R203, R205, R280). -/
inductive TilePhase where
  | idle
  | entering
  | needProgram
  | armed (t : Nat)
  | running
  | stopping
  | stopped
deriving DecidableEq, Repr

/-- The launch a tile runs, as the broadcast gave it (R184, R198, R200). -/
structure TileLaunch where
  q : Nat
  seq : Nat
  part : Nat
  rank : Nat
  gsize : Nat
  gx : Nat
  gy : Nat
  gz : Nat
  program : Nat
  build : Nat
  sects : List (Nat × Nat)
  crc : Nat
  evBlock : Nat
  startAt : Option Nat
  wdogMs : Nat
  block : List Byte
deriving DecidableEq, Repr

/-- A Patch test block selected for audit (R112, R115): block row and column, instruction index, descriptor, the
threshold in force at issue (R118), the valid rows of the block, and the C element and the unit's output of each covered
output. -/
structure PatchBlock where
  i : Nat
  j : Nat
  index : Nat
  desc : List Byte
  thresh : Nat
  rows : List Nat
  c : List Nat
  d : List Nat
deriving DecidableEq, Repr

/-- A tile (R24). Engines: 0 KV translator, 1 matrix unit, 2 Skim unit, 3 to 6 vector streams, 7 and 8 DMA. -/
structure Tile where
  cores : SMap Core
  tokens : SMap Nat
  engines : SMap Engine
  slots : SMap SkimSlot
  tables : SMap TableSlot
  cache : List CacheLine
  fills : List Fill
  tlb : SMap Nat
  phase : TilePhase
  launch : Option TileLaunch
  tag : Option (Nat × Nat)
  packBad : Nat
  patchBlocks : List PatchBlock
  fault : Option FaultRec
  reported : Bool
deriving DecidableEq, Repr

def Tile.init : Tile :=
  ⟨[], [], [], [], [], [], [], [], .idle, none, none, 0, [], none, false⟩

/-! ### Queues and launches -/

/-- Queue states of R262. -/
inductive QState where
  | disabled | active | aborting | closing | error
deriving DecidableEq, Repr

/-- A queue (R263 to R268). -/
structure Queue where
  st : QState
  ring : Nat
  cring : Nat
  htab : Nat
  hent : Nat
  rsize : Nat
  csize : Nat
  rhost : Bool
  chost : Bool
  prioMax : Nat
  vec : Nat
  fn : Nat
  stageLead : Nat
  acte : List Nat
  head : Nat
  tail : Nat
  tailSeen : Nat
  rung : Bool
  cqhead : Nat
  written : Nat
  nextSeq : Nat
  cmdCount : Nat
  engBytes : List Nat
  escalated : Bool
deriving DecidableEq, Repr

def Queue.init : Queue :=
  ⟨.disabled, 0, 0, 0, 0, 0, 0, false, false, 0, 0, 0, 0, [], 0, 0, 0, false, 0, 0, 1, 0, [], false⟩

/-- Where a fetched record stands (R270 to R282); `stopping` is a HUB record to which an abort has come. -/
inductive LStage where
  | fetched | ready | window | staged | running | engine | stopping | counted
deriving DecidableEq, Repr

/-- Types of a launch record (R269). -/
inductive RecType where
  | launch | marker | hub
deriving DecidableEq, Repr

/-- First fault of a launch: status, tile, stream and instruction index (R203, R283). -/
structure LaunchFault where
  status : Nat
  tile : Nat
  stream : Nat
  index : Nat
deriving DecidableEq, Repr

/-- A fetched launch record that has not completed (R269, R270); `waited` once it has waited only for tiles, which it then
reserves (R278). -/
structure Launch where
  q : Nat
  seq : Nat
  part : Nat
  type : RecType
  prio : Nat
  timed : Bool
  indctl : Bool
  irq : Bool
  overlap : Bool
  group : Nat
  gx : Nat
  gy : Nat
  gz : Nat
  program : Nat
  indirect : Nat
  notBefore : Nat
  waits : List Nat
  signals : List Nat
  const : List Byte
  handles : List Nat
  addrs : List Nat
  evBlock : Nat
  wdogMs : Nat
  build : Nat
  sects : List (Nat × Nat)
  crc : Nat
  tiles : List Nat
  expect : List Nat
  tokens : List Nat
  stage : LStage
  start : Option Nat
  late : Bool
  packBad : Bool
  skip : Bool
  fault : Option LaunchFault
  aborting : Bool
  waited : Bool
deriving DecidableEq, Repr

/-- A launch event (R273). -/
structure Event where
  count : Nat
  err : Bool
deriving DecidableEq, Repr

def Event.init : Event := ⟨0, false⟩

/-- A combining slot of a tree router (R33). -/
structure CSlot where
  q : Nat
  seq : Nat
  need : Nat
  got : Nat
deriving DecidableEq, Repr

/-! ### Partitions -/

/-- Partition states of R291. -/
inductive PState where
  | disabled | ready | draining | scrubbing
deriving DecidableEq, Repr

/-- A drain in progress (R296 to R301): whether it ends in a disable, whether engines were hard-stopped, the hub
engines that have yet to confirm, the queues whose destroy escalated (R289), and the pages still to be zeroed. -/
structure Drain where
  disable : Bool
  hardStopped : Bool
  unconfirmed : List Nat
  escalated : List Nat
  scrub : List (Nat × Nat)
deriving DecidableEq, Repr

/-- The Patch test block of a partition (R118), and the counts of its RC registers. -/
structure Patch where
  ctl : U32
  thresh : U32
  seedLo : U32
  seedHi : U32
  ringLo : U32
  ringHi : U32
  head : Nat
  tail : Nat
  sampled : Nat
  skipped : Nat
  alarms : Nat
  dropped : Nat
deriving DecidableEq, Repr

/-- Reset values of R118. -/
def Patch.init : Patch := ⟨0x00000C40, 0x3E800000, 0, 0, 0, 0, 0, 0, 0, 0, 0, 0⟩

/-- A partition: its copied plan entry (R293), state and logs (R469). -/
structure Part where
  st : PState
  tiles : List Nat
  queues : List Nat
  msix : Nat
  kvpools : Nat
  fgroups : Nat
  fgbase : Nat
  scrubHbm : Bool
  rtab : Nat
  rtlen : Nat
  actab : List (Nat × AclEntry)
  tgtab : List (List Nat)
  engFail : Nat
  drain : Option Drain
  patch : Patch
  elogHead : Nat
  elogTail : Nat
  elogDrop : Nat
  elog : SMap (List Byte)
deriving DecidableEq, Repr

def Part.init : Part :=
  ⟨.disabled, [], [], 0, 0, 0, 0, false, 0, 0, [], [], 0, none, Patch.init, 0, 0, 0, []⟩

/-- A registered KV pool (R156, R157). A pending page waits for the launches dispatched before its release. -/
structure KvPool where
  part : Nat
  desc : Nat
  base : Nat
  psz : Nat
  scrub : Bool
  pages : Nat
  refs : Nat
  stack : Nat
  lowater : Nat
  pending : List (Nat × List (Nat × Nat))
  low : Bool
deriving DecidableEq, Repr

/-! ### Metering -/

/-- Usage counters of a partition in its open record (R307, R311). -/
structure Usage where
  mac4 : Nat
  mac8 : Nat
  mac16 : Nat
  hbmRd : Nat
  hbmWr : Nat
  netRx : Nat
  netTx : Nat
  fabTx : Nat
  hostDma : Nat
  launches : Nat
  faults : Nat
deriving DecidableEq, Repr

def Usage.init : Usage := ⟨0, 0, 0, 0, 0, 0, 0, 0, 0, 0, 0⟩

/-- An open metering record (R310, R312): module and partition energy in µJ and peak power, arithmetic cycles and
nanoseconds of owned tiles, up to the last attribution; pages granted W × ns up to `grantAt`; `unaligned` once it has
crossed a boundary with the Plumb counter not aligned (R309). -/
structure OpenRec where
  start : Nat
  partial_ : Bool
  stretched : Bool
  unaligned : Bool
  eMod : Nat
  ePart : Nat
  peak : Nat
  active : Nat
  tileNs : Nat
  grantNs : Nat
  grantAt : Nat
deriving DecidableEq, Repr

/-- A closed record: sequence, partition and its 256-byte body (R311). -/
structure MRec where
  seq : Nat
  part : Nat
  body : List Byte
deriving DecidableEq, Repr

/-- The metering block (R304 to R314): `interval` is METER_CTL's field, `curStart` and `curEnd` bound the current interval,
`measured` is the Plumb time up to which energy has been attributed, and `closed` holds records that await their
signature. -/
structure Meter where
  interval : Nat
  curStart : Nat
  curEnd : Nat
  measured : Nat
  boot : Nat
  seq : Nat
  pseq : SMap Nat
  broken : Bool
  opened : SMap (Option OpenRec)
  usage : SMap Usage
  closed : List MRec
  buffer : List MRec
  prev : SMap (List Byte)
  sel : SMap Nat
  running : Bool
deriving DecidableEq, Repr

/-! ### Front-end network -/

/-- A source-address table entry (R316). -/
structure SrcEntry where
  family : Nat
  pfx : Nat
  vlan : Nat
  part : Nat
  addr : List Byte
deriving DecidableEq, Repr

def SrcEntry.init : SrcEntry := ⟨0, 0, 0, 0, []⟩

/-- Queue-pair states of R472. -/
inductive QpState where
  | reset | init | rtr | rts | error
deriving DecidableEq, Repr

/-- A queue pair (R317, R472). The send rate is `rateN / 2^rateK` twentieths of the line rate; `cnpAt`, `cutAt` and
`rateAt` are the Plumb times of its last notification sent, its last halving, and the start of the 55 µs to its next
raise (R320). `rx` holds received messages, an immediate as four more bytes, and `sent` counts the outbound messages that
await an acknowledgement. -/
structure Qp where
  part : Nat
  ud : Bool
  st : QpState
  desc : List Byte
  src : Nat
  prio : Nat
  timeout : Nat
  retry : Nat
  retriesLeft : Nat
  rateN : Nat
  rateK : Nat
  cnpAt : Option Nat
  cutAt : Option Nat
  rateAt : Nat
  rx : List (List Byte)
  sent : Nat
deriving DecidableEq, Repr

/-- The addresses of a RoCE v2 packet (R316, R472): source IP, VLAN with its priority code point, next-hop MAC, destination
IP and queue pair. -/
structure NetHead where
  src : List Byte
  vlan : Nat
  dmac : List Byte
  dip : List Byte
  rqpn : Nat
deriving DecidableEq, Repr

/-- A frame the module sends, by kind, port or queue pair, and content (R315, R318, R320, R334); the packets of a queue pair
carry addresses. -/
structure NetMsg where
  kind : String
  dest : Nat
  args : List Nat
  data : List Byte
  head : Option NetHead := none
deriving DecidableEq, Repr

/-- A controller association (R322, R473). -/
structure Assoc where
  part : Nat
  aqp : Nat
  ioqp : Nat
  kato : Nat
  blockLog : Nat
  mdts : Nat
deriving DecidableEq, Repr

/-- An outstanding NVMe command (R324): controller, command identifier, offset in the data, length and address; its
memory key is valid while it is outstanding. -/
structure NvmeCmd where
  q : Nat
  seq : Nat
  ctl : Nat
  cid : Nat
  key : Nat
  write : Bool
  off : Nat
  len : Nat
  mem : Nat
deriving DecidableEq, Repr

/-- A READ or WRITE record that an NVMe-oF engine holds (R323, R324): `unit` is the stripe unit in bytes, and commands
for the first `issued` bytes have been sent. -/
structure NvmeOp where
  q : Nat
  seq : Nat
  part : Nat
  write : Bool
  ctls : List Nat
  unit : Nat
  nsid : Nat
  lba : Nat
  bytes : Nat
  base : Nat
  digest : Option Nat
  issued : Nat
deriving DecidableEq, Repr

/-- The Ethernet ports, RDMA and NVMe-oF engines. -/
structure Net where
  srctab : SMap SrcEntry
  qps : SMap (Option Qp)
  paused : SMap Bool
  assocs : SMap (Option Assoc)
  nvmeCmds : List NvmeCmd
  nvmeOps : List NvmeOp
  nextCid : Nat
  out : List NetMsg
  /-- Messages that a PFC pause holds, by 8 × port + priority (R320). -/
  held : List (Nat × NetMsg)
  /-- Per cent of its receive buffer that each priority's frames fill, by 8 × port + priority (R320). -/
  rxFill : SMap Nat
deriving DecidableEq, Repr

/-! ### Resident serving -/

/-- A ring of a service (R332, R333); `told` is the consumed count last written to the client, and `marks` holds the counts
received with the Plumb times at which they came, oldest first. -/
structure Ring where
  inBase : Nat
  inSize : Nat
  egSize : Nat
  qp : Nat
  egKey : Nat
  egBase : Nat
  egHeadAt : Nat
  count : Nat
  consumed : Nat
  told : Nat
  egCount : Nat
  stopped : Bool
  marks : List (Nat × Nat)
deriving DecidableEq, Repr

/-- A live request (R333, R335, R336), with the number of its admission. `region` is its KV handle, 0 before one is made,
`ctx` the tokens in it, `running` holds once its prompt has been computed, and `since` is the Plumb time of its arrival. -/
structure Req where
  key : Nat
  ring : Nat
  id : Nat
  adapter : Nat
  prompt : List Nat
  maxNew : Nat
  topK : Nat
  invTemp : Nat
  topP : Nat
  seed : Nat
  stops : List Nat
  pfx : Nat
  plen : Nat
  region : Nat
  ctx : Nat
  emitted : List Nat
  running : Bool
  since : Nat
deriving DecidableEq, Repr

/-- An entry of the step being run: the request by its admission number, new tokens and candidates. -/
structure StepEntry where
  req : Nat
  new : Nat
  cand : Nat
deriving DecidableEq, Repr

/-- A record that a step wrote into its queue's ring: 0 reserve, 1 draft, 2 model, 3 sampling, 4 commit; its record number
(R265), its launch sequence once it has been fetched, its status once it has completed (R338), and the addresses of the
arrays that the firmware's own records name. -/
structure StepRec where
  kind : Nat
  number : Nat
  seq : Option Nat
  status : Option Nat
  addrs : List Nat
deriving DecidableEq, Repr

/-- A step in progress (R338), with whether it runs a draft launch (R337). -/
structure ServeStep where
  entries : List StepEntry
  recs : List StepRec
  draft : Bool
deriving DecidableEq, Repr

/-- A resident service (R332): its descriptor, one that takes effect at the next step, its rings and live requests, and the
egress entries that wait to be written, with their ring, oldest first. -/
structure Service where
  desc : List Byte
  pendingDesc : Option (List Byte × List Ring)
  rings : List Ring
  reqs : List Req
  nextKey : Nat
  step : Option ServeStep
  stopping : Bool
  out : List (Nat × List Byte)
deriving DecidableEq, Repr

/-! ### Collectives and snapshots -/

/-- A fabric group entry (R379 to R381). -/
structure Group where
  part : Nat
  snap : Bool
  ndim : Nat
  dims : List Nat
  rank : Nat
  chunk : Nat
  k : Nat
  m : Nat
  permitFeed : Bool
  members : List Nat
  collTo : Nat
  slots : Nat
  slotLen : Nat
  ring : Nat
  gdig : List Byte
  nextOp : Nat
  feedExposed : Bool
  ready : Bool
  feeds : List (Nat × Nat)
  createQ : Nat
  createSeq : Nat
deriving DecidableEq, Repr

/-- A collective operation that a module runs (R383 to R391): its record; in `acc` the values known at level ℓ, by
ℓ × 2^50 + element, and as level 9 the final values (ALL_TO_ALL: SLEN by source rank); the sendings begun; chunks taken of
each numbered stream; chunks held for a gap; chunks to send, with the rank they go to; chunks sent and not acknowledged,
with their rank and the Plumb times of the first and the last sending; the time of the last word from a peer. -/
structure CollOp where
  q : Nat
  seq : Nat
  part : Nat
  gnum : Nat
  coll : Nat
  opseq : Nat
  redop : Nat
  wfmt : Nat
  ofmt : Nat
  count : Nat
  root : Nat
  output : Nat
  table : Nat
  opdig : List Byte
  acc : SMap (Option Nat)
  starts : List Nat
  got : SMap Nat
  early : List Chunk
  toSend : List (Nat × Chunk)
  unacked : List (Nat × Nat × Nat × Chunk)
  lastRx : Nat
  truncated : Bool
deriving DecidableEq, Repr

/-- A scheduled group remap (R382). -/
structure Remap where
  part : Nat
  old : Nat
  new : Nat
  at_ : Nat
deriving DecidableEq, Repr

/-- A SNAP_SEND in progress (R399): its slot, the parity ranks whose acknowledgement a data member awaits, and on a
parity member the streams that have arrived, as (rank, length, digest), with the parity so far. With `record` set, a
STEP_RECORD that awaits every other member's acknowledgement (R401). -/
structure SnapOp where
  q : Nat
  seq : Nat
  part : Nat
  gnum : Nat
  step : Nat
  record : Bool
  slot : Nat
  awaiting : List Nat
  streams : List (Nat × Nat × List Byte)
  parity : List Byte
deriving DecidableEq, Repr

/-- The collective and snapshot engines. `duplicates` counts the chunks that arrived again (R390). -/
structure Coll where
  groups : SMap (Option Group)
  ops : List CollOp
  remaps : List Remap
  snaps : List SnapOp
  notices : List (Nat × Nat × NoticeCause)
  duplicates : Nat
deriving DecidableEq, Repr

/-! ### Remote accesses -/

/-- Who waits for a remote response (R362). -/
inductive RemoteOwner where
  | core (c : CoreId)
  | dma (t e dst : Nat) (host : Bool)
  | skim (t : Nat)
deriving DecidableEq, Repr

/-- An outstanding remote request of this module (R362), with its fabric global address (R212). -/
structure RemoteOut where
  tag : Nat
  home : Nat
  addr : Nat
  kind : AccessKind
  owner : RemoteOwner
deriving DecidableEq, Repr

/-- The remote-request unit's record for one source module (R362). -/
structure RemoteSrc where
  seen : Bool
  highest : Nat
  record : List (Nat × Nat × List Byte)
deriving DecidableEq, Repr

def RemoteSrc.init : RemoteSrc := ⟨false, 0, []⟩

/-- A message to another module, with its virtual channel (R30) and the POISON of its flits (R221). -/
structure FabMsg where
  kind : String
  dest : Nat
  args : List Nat
  data : List Byte
  vc : Nat
  poison : Bool
deriving DecidableEq, Repr

/-! ### The data plane -/

/-- A PCIe error that AER records for a function (R234). -/
structure PcieError where
  fn : Nat
  kind : AerError
deriving DecidableEq, Repr

/-- An atomic of TILE or DIE scope that may still be in progress away from its point of coherence (R256, R257): its core,
whether its scope is DIE, its address and its bytes. -/
structure NarrowAtomic where
  core : CoreId
  die : Bool
  addr : Nat
  len : Nat
deriving DecidableEq, Repr

/-- The patrol scrub of a pseudo-channel (R220): the stack-local address that it read last, and the corrected errors of
each row in this cycle, by (bank, row). -/
structure ScrubCycle where
  last : Nat
  rows : List ((Nat × Nat) × Nat)
deriving DecidableEq, Repr

def ScrubCycle.init : ScrubCycle := ⟨0, []⟩

/-- What the module last answered to a host read or refused request on the PCIe link: data, a refusal that moves none
(R238), or Unsupported Request (R251). -/
inductive Completion where
  | data (bytes : List Byte)
  | refused
  | unsupported
deriving DecidableEq, Repr

/-- Everything that work touches. -/
structure DataPlane where
  mem : MemSys
  tiles : SMap Tile
  hubCores : SMap Core
  /-- Effective width of each tile, 0 when disabled (R25, R88, R428); unlisted tiles have 128. -/
  widths : SMap Nat
  queues : SMap Queue
  launches : List Launch
  events : SMap Event
  combine : SMap (List CSlot)
  /-- One more than the queue served last at each priority (R277). -/
  served : SMap Nat
  collector : List (Nat × Nat × Nat)
  parts : SMap Part
  pools : SMap (Option KvPool)
  meter : Meter
  net : Net
  services : SMap (Option Service)
  coll : Coll
  tagNext : SMap Nat
  remoteOut : List RemoteOut
  remoteIn : SMap RemoteSrc
  fabOut : List FabMsg
  /-- MSI-X messages raised, as (function, vector), oldest first (R284). -/
  irqs : List (Nat × Nat)
  /-- Register words without a home of their own, by function and BAR0 offset (R461 to R465). -/
  regs : SMap U32
  /-- Telemetry counters by TELEM offset (R458, R470). -/
  telem : SMap Nat
  /-- Latched high words of 64-bit counters, by function (R461). -/
  latch : SMap U32
  /-- SR-IOV: VF Enable and NumVFs (R291). -/
  vfEnable : Bool
  numVfs : Nat
  /-- The PCIe link is down and no function answers (R408). -/
  pcieDown : Bool
  /-- PCIe errors that AER has recorded, oldest first (R234). -/
  aer : List PcieError
  /-- Atomics whose scope does not reach every agent and that may still be in progress (R257). -/
  narrow : List NarrowAtomic
  /-- Patrol scrubs, by 32 × stack + pseudo-channel (R220). -/
  scrub : SMap ScrubCycle
  /-- Launches whose last token has been counted and that have not completed, as (Plumb time, queue, sequence) in the
  order of their completion records (R282). -/
  collected : List (Nat × Nat × Nat)
  /-- HUB records that their engines hold, in the order of their handoff (R277, R303). -/
  hubQueue : List (Nat × Nat)
  /-- The last answer to a host request. -/
  cpl : Option Completion
  /-- Set by a module-fatal fault (R18): nothing is served until a whole-module reset. -/
  fatal : Bool
  /-- The MODEL's own counter of free values taken (log entry 3). -/
  free : Nat
deriving DecidableEq, Repr

/-! ### The fabric plane -/

/-- Link states of R378. -/
inductive LinkSt where
  | absent | training | up | quarantine | down | disabled
deriving DecidableEq, Repr

/-- A link's planned neighbour (R354). -/
structure PlanEntry where
  v : Bool
  dev : Nat
  link : Nat
deriving DecidableEq, Repr

/-- A Jothen link (R343 to R356, R378). `disc` is JLINK_STATUS.DISC and `width` its WIDTH code; `asym` is the correction
of its timestamps in 1/64 ns (R372) and `offset` its last exchange's offset; `credits` lists for each virtual channel
the buffer classes of the flits sent whose credit has not come back, oldest first, and `owed` the credits that this end
must return; `held` are flits that wait to be sent on the link, with the link that they came in on (6: this module's
own); `turn` is the virtual channel of 1 to 5 served last and how many flits of its weight it has left; `wire` is every
flit sent, oldest first; `peer` is the neighbour's depth, ALIGNED bit and parent device ID by its last exchange flit
(R371). -/
structure Link where
  st : LinkSt
  disc : Nat
  width : Nat
  lgrp : Nat
  strong : Bool
  nbr : Nat
  rlink : Nat
  observed : Option Identity
  released : Option Identity
  detour : Bool
  asym : Int
  txSeq : Nat
  rxSeq : Nat
  retry : List Flit
  replays : Nat
  credits : SMap (List Nat)
  owed : SMap Nat
  retrains : Nat
  rejecting : Bool
  held : List (Nat × Flit)
  turn : Nat × Nat
  wire : List Flit
  offset : Option Int
  peer : Option (Nat × Bool × Nat)
deriving DecidableEq, Repr

def Link.init : Link :=
  ⟨.absent, 0, 0, 0, false, 0, 0, none, none, false, 0, 0, 4095, [], 0, [], [], 0, false, [], (5, 0), [], none, none⟩

/-- The configuration the fabric uses (R354, R474). -/
structure FabCfg where
  valid : Bool
  id : Nat
  dx : Nat
  dy : Nat
  dz : Nat
  plan : List PlanEntry
  gm : Nat
  gmDep : Nat
  fm : Nat
  fmDep : Nat
  cm : Nat
  cmDep : Nat
  feed : Nat
  fabTimeout : Nat
  spares : List Nat
  carve : Nat
deriving DecidableEq, Repr

def FabCfg.init : FabCfg := ⟨false, 0, 1, 1, 1, [], 0, 0, 0, 0, 0, 0, 0, 2000, [], 0⟩

/-- Sources of Plumb time (R378). -/
inductive PlumbSrc where
  | free | tod | tree | holdover
deriving DecidableEq, Repr

/-- The Plumb counter and its discipline (R369 to R375). `frac` counts 1/64 ns; `rate` is the correction, in 1/64 ns,
that the counter still has to work off, at `slope` 1/64 ns per second of the reference, and `phase` counts towards its
next 1/64 ns; `half` is the half-rate run of R373; `tod` holds the seconds of the first valid message until the next
edge, and `edge` the counter at the last edge (R370). -/
structure Plumb where
  ns : Nat
  frac : Nat
  aligned : Bool
  source : PlumbSrc
  gm : Bool
  parent : Nat
  depth : Nat
  offset : Int
  good : Nat
  rate : Int
  slope : Nat
  phase : Nat
  half : Bool
  tod : Option Nat
  synced : Bool
  edge : Nat
deriving DecidableEq, Repr

def Plumb.init : Plumb := ⟨0, 0, false, .free, false, 7, 0, 0, 0, 0, 0, 0, false, none, false, 0⟩

/-- A manager role's state on this module (R366 to R368). -/
structure Manager where
  active : Bool
  standby : Bool
  deputy : Bool
  misses : Nat
  beats : Nat
  reports : List Report
deriving DecidableEq, Repr

def Manager.init : Manager := ⟨false, false, false, 0, 0, []⟩

/-- Power shaping and the arithmetic clock (R36, R37, R376, R377). -/
structure Shape where
  ramp : Option (Nat × Nat × Nat)
  draw : Nat
  filler : Nat
  lastPower : List ((Nat × Nat) × Nat)
  clockTarget : Nat
  clockRun : Nat
  gliding : Bool
  held : Option Nat
deriving DecidableEq, Repr

/-- The fabric plane. `taken` counts the messages of `fabOut` that the links have taken, and `orphan` says that this
module's cell has lost its manager and its deputy (R368). -/
structure Fabric where
  cfg : FabCfg
  links : SMap Link
  taken : Nat
  orphan : Bool
  routes : SMap Bool
  rewrites : List (Nat × List RouteEntry)
  fabricMgr : Manager
  cellMgr : Manager
  cmAddr : Nat
  fmAddr : Nat
  plumb : Plumb
  shape : Shape
  /-- Snapshot cadences received, as (τ in ms, Plumb time from which it is in force), oldest first (R403). -/
  taus : List (Nat × Nat)
  losses : List (Nat × Nat)
  spareUsed : List Nat
deriving DecidableEq, Repr

/-! ### The management plane -/

/-- Pins and the input controller (R482 to R496). Each `…N` field is true while the active-low pin is asserted. -/
structure Pins where
  vinMv : Nat
  pwrEn : Bool
  pwrGood : Bool
  switchOn : Bool
  railFail : Bool
  modResetN : Bool
  perstN : Bool
  alertN : Bool
  faultN : Bool
  thermTripN : Bool
  hold : Bool
  heldEn : Bool
deriving DecidableEq, Repr

/-- Module states of BOOT_STATUS.STATE (R435). `off` is the model's name for an unpowered or reset-held module,
and `mute` for one whose Primer check failed (R412). -/
inductive BootSt where
  | off | mute | primer | recovery | bringup | ready | degraded | derated | safe
deriving DecidableEq, Repr

/-- Bring-up (R407 to R436). `phase` is BOOT_STATUS.PHASE; `mapped` counts how often the Scrim map has been formed
(R428), `rerun` holds the tiles that have had their second matrix run (R430), `image` the verified image (R415) and
`log` the field log that was valid at bring-up (R426). -/
structure Boot where
  st : BootSt
  phase : Nat
  ecol : Nat
  deratedBit : Bool
  degradedBit : Bool
  cause : Nat
  unit : Nat
  timeMs : Nat
  tileFail : List Nat
  colFail : List (Nat × Nat)
  tested : List Nat
  slices : List Nat
  hbmDone : Bool
  paused : Bool
  pausedMs : Nat
  mapped : Nat
  fwOk : Bool
  katDone : Bool
  loadDone : Bool
  rerun : List Nat
  image : List Byte
  log : List Byte
  rowsRepaired : List Nat
  uploadBy : Option Nat
deriving DecidableEq, Repr

def Boot.init : Boot :=
  { st := .primer, phase := 0, ecol := 0, deratedBit := false, degradedBit := false, cause := 0, unit := 0, timeMs := 0,
    tileFail := [], colFail := [], tested := [], slices := [0, 0, 0], hbmDone := false, paused := false, pausedMs := 0,
    mapped := 0, fwOk := false, katDone := false, loadDone := false, rerun := [], image := [], log := [],
    rowsRepaired := [], uploadBy := none }

/-- Fuses (R3, R428, R437 to R444, R467): kept through every reset and power loss. -/
structure Fuses where
  lcs : LcState
  prov : Nat
  vendor : Nat
  iana : Nat
  rootHash : List Byte
  owners : List (List Byte)
  svcKeys : List (List Byte)
  passHash : List Byte
  rollback : Nat
  returns : Nat
  badTiles : List Nat
  badCols : List (Nat × Nat)
  keysDestroyed : Bool
deriving DecidableEq, Repr

/-- An open session (R446, R447): `seq` is the last accepted SEQ and `key` the hash of the key that opened it. -/
structure Session where
  id : Nat
  iface : Nat
  role : SesRole
  byKey : Bool
  key : List Byte
  seq : Nat
deriving DecidableEq, Repr

/-- The mode table (R453). Clock: 0 Full, 1 Balanced, 2 Efficient. -/
structure ModeTab where
  clock : Nat
  pcap : Nat
  ecc : Nat
  fec : Nat
  rmin : Nat
  rmax : Nat
  tmin : Nat
  tmax : Nat
deriving DecidableEq, Repr

/-- Defaults of R453. -/
def ModeTab.init : ModeTab := ⟨0, 3200, 0, 0, 6, 12, 10, 3600⟩

/-- The user calibration region (R413, R459), as differences from the factory values. -/
structure UserCal where
  gain : Int
  offset : Int
  thermal : List Int
  presets : List (Nat × Nat)
  mode : Option ModeTab
deriving DecidableEq, Repr

/-- Contents of the flash's factory, metering and user calibration regions (R413), whose byte layout the spec does not
give: root key, certificates, whether factory calibration is present, the BOOT count (R313), the metering block's
calibration (R304: IDLE_W in W by clock mode; a mode it does not list has Config.idleW) and the user calibration;
`ucalIntact` is false when that region's digest fails. Kept through resets and power loss. -/
structure Regions where
  rootKey : List Byte
  devCert : List Byte
  metCert : List Byte
  factoryCal : Bool
  bootCount : Nat
  meterCal : List Nat
  ucal : Option UserCal
  ucalIntact : Bool
deriving DecidableEq, Repr

def Regions.init : Regions := ⟨[], [], [], true, 0, [], none, true⟩

/-- The security processor (R437 to R460). `mode` is in force, with ECC the value for the next boot; `eccNow` is the
ECC mode in use. -/
structure Security where
  sessions : List Session
  nextId : Nat
  nonces : SMap (Option (List Byte × SesRole))
  lock : Option Nat
  wrongPass : Nat
  consent : Bool
  testOpen : Bool
  mode : ModeTab
  eccNow : Nat
  resetDue : Bool
  /-- Session windows by interface: the last response (R445). -/
  win : SMap (List Byte)
  measImage : List Byte
  measSect : List Byte
  measUcal : List Byte
  measFlog : List Byte
  rollImg : Nat
deriving DecidableEq, Repr

/-- The instruction in the JTAG instruction register (R438). -/
inductive JtagIr where
  | bypass | idcode | sample | extest | extestPulse | extestTrain | testEngine
deriving DecidableEq, Repr

/-- The management bus (R452) and JTAG (R438). -/
structure Bus where
  i3cOn : Bool
  hotJoin : Bool
  dynAddr : Option Nat
  eid : Nat
  ibi : List Nat
  resp : List Byte
  ir : JtagIr
  boundary : List Bool
  driven : Bool
  tdo : List Bool
deriving DecidableEq, Repr

/-- The management plane. -/
structure Mgmt where
  pins : Pins
  boot : Boot
  fuses : Fuses
  /-- Configuration flash by byte offset (R413). Unlisted bytes read 0. -/
  flash : List Host.Cell
  regions : Regions
  sec : Security
  bus : Bus
  /-- Sensor readings by PLDM sensor ID (R457). -/
  sensors : SMap Int
deriving DecidableEq, Repr

/-- The whole module and the commands that wait for it, first in, first out. -/
structure State where
  dp : DataPlane
  fb : Fabric
  mg : Mgmt
  pending : List Instr
deriving DecidableEq, Repr

/-! ### Reset -/

def MemSys.reset : MemSys :=
  { dev := [], host := [], hostEp := [], hostRefused := [], far := [], farRefused := [], poison := [], acl := [],
    syncBusy := false }

def Meter.reset : Meter := ⟨10, 0, 0, 0, 0, 1, [], false, [], [], [], [], [], [], false⟩

def Net.reset : Net := ⟨[], [], [], [], [], [], 0, [], [], []⟩

def Coll.reset : Coll := ⟨[], [], [], [], [], 0⟩

/-- Key of a register word without a home of its own: function and BAR0 offset. -/
def regKey (fn off : Nat) : Nat := fn * 0x2000000 + off

/-- The data plane after a whole-module reset (R407): memories zero, queues and partitions DISABLED. LATH_VCW and
PSHAPE_RATE start at their reset values (R378, R465). -/
def DataPlane.reset : DataPlane :=
  { mem := MemSys.reset, tiles := [], hubCores := [], widths := [], queues := [], launches := [], events := [],
    combine := [], served := [], collector := [], parts := [], pools := [], meter := Meter.reset, net := Net.reset,
    services := [], coll := Coll.reset, tagNext := [], remoteOut := [], remoteIn := [], fabOut := [], irqs := [],
    regs := [(regKey 0 0x023028, 0x03E803E8), (regKey 0 0x023030, 0x00021342)],
    telem := [], latch := [], vfEnable := false, numVfs := 0, pcieDown := false, aer := [], narrow := [],
    scrub := [], collected := [], hubQueue := [], cpl := none, fatal := false, free := 0 }

def Shape.reset : Shape := ⟨none, 0, 0, [], 0, 850, false, none⟩

def Fabric.reset : Fabric :=
  { cfg := FabCfg.init, links := [], taken := 0, orphan := false, routes := [], rewrites := [], fabricMgr := Manager.init,
    cellMgr := Manager.init, cmAddr := 0, fmAddr := 0, plumb := Plumb.init, shape := Shape.reset,
    taus := [], losses := [], spareUsed := [] }

/-- Pins of a powered module out of reset (log entry 2). -/
def Pins.reset : Pins := ⟨54000, true, true, true, false, false, false, false, false, false, false, false⟩

/-- Fuses of a module as shipped (log entry 2): PROVISIONED, no owner, no bad unit. -/
def Fuses.init : Fuses := ⟨.provisioned, 0, 0, 0, [], [], [], [], 0, 0, [], [], false⟩

def Security.reset : Security :=
  { sessions := [], nextId := 1, nonces := [], lock := none, wrongPass := 0, consent := false, testOpen := false,
    mode := ModeTab.init, eccNow := 0, resetDue := false, win := [], measImage := List.replicate 32 0,
    measSect := List.replicate 128 0, measUcal := List.replicate 32 0, measFlog := List.replicate 32 0, rollImg := 0 }

def Bus.reset : Bus := ⟨false, false, none, 0, [], [], .bypass, [], false, []⟩

def Mgmt.reset : Mgmt :=
  { pins := Pins.reset, boot := Boot.init, fuses := Fuses.init, flash := [], regions := Regions.init, sec := Security.reset,
    bus := Bus.reset, sensors := [] }

/-- The module right after a whole-module reset (R407), powered, bring-up about to start, no command waiting. -/
def State.reset : State := ⟨DataPlane.reset, Fabric.reset, Mgmt.reset, []⟩

end Sys2Proof.Machine
end

