-- ==== Sys2Proof/Machine/Flags.lean ====
section
/-! DEFINITION. Status and event codes (R476), which statuses set ERR (R275, R475), launch events (R273), the error
log (R469) and MSI-X messages (R284). -/

namespace Sys2Proof.Machine

def stSuccess : Nat := 0x0000
def stSkipped : Nat := 0x0001
def stPackInvalid : Nat := 0x0002
def stAborted : Nat := 0x0003
def stDependencyFailed : Nat := 0x0004
def stRecordInvalid : Nat := 0x0005
def stTilegroupInvalid : Nat := 0x0006
def stHandleInvalid : Nat := 0x0007
def stProgramInvalid : Nat := 0x0008
def stPlumbUnaligned : Nat := 0x0009
def stTimeRange : Nat := 0x000A
def stPeerAbort : Nat := 0x000B
def stQueueOverrun : Nat := 0x000C
def stRingFault : Nat := 0x000D
def stDrainEscalated : Nat := 0x000E
def stDeviceFatal : Nat := 0x000F
def stFormatInvalid : Nat := 0x0100
def stFormatMismatch : Nat := 0x0101
def stShapeInvalid : Nat := 0x0102
def stOperandOverlap : Nat := 0x0103
def stDescInvalid : Nat := 0x0104
def stSkimModeInvalid : Nat := 0x0105
def stSfuFuncInvalid : Nat := 0x0106
def stSfuTableEmpty : Nat := 0x0107
def stTableInvalid : Nat := 0x0108
def stTableNotMonotone : Nat := 0x0109
def stScoreboardOverflow : Nat := 0x010A
def stAccessFault : Nat := 0x0200
def stPoisonConsumed : Nat := 0x0201
def stDmaTimeout : Nat := 0x0202
def stHostDmaError : Nat := 0x0203
def stFabricTimeout : Nat := 0x0204
def stCoreIllegal : Nat := 0x0210
def stCoreMisaligned : Nat := 0x0211
def stCoreEcc : Nat := 0x0212
def stCoreWatchdog : Nat := 0x0213
def stProgramTrap : Nat := 0x0214
def stStencilInvalid : Nat := 0x0300
def stKvRegionInvalid : Nat := 0x0301
def stKvLengthLimit : Nat := 0x0302
def stKvPoolInvalid : Nat := 0x0303
def stKvPoolExhausted : Nat := 0x0304
def stKvNotReserved : Nat := 0x0305
def stKvRefcountLimit : Nat := 0x0306
def stKvCommitInvalid : Nat := 0x0307
def stNvmeError : Nat := 0x0400
def stNvmeTimeout : Nat := 0x0401
def stRequestInvalid : Nat := 0x0402
def stSampleNonfinite : Nat := 0x0403
def stGroupInvalid : Nat := 0x0500
def stGroupMismatch : Nat := 0x0501
def stCollMismatch : Nat := 0x0502
def stCollTruncated : Nat := 0x0503
def stLinkLoss : Nat := 0x0504
def stCollTimeout : Nat := 0x0505
def stFeedConflict : Nat := 0x0506
def stSnapInvalid : Nat := 0x0507
def stReconstructFailed : Nat := 0x0508
def stSesBadSig : Nat := 0x0600
def stSesDenied : Nat := 0x0601
def stSesInvalid : Nat := 0x0602
def stSesBusy : Nat := 0x0603
def stSesState : Nat := 0x0604
def evKvPoolLow : Nat := 0x0F00
def evPatrolUe : Nat := 0x0F01
def evHbmRowLogged : Nat := 0x0F02
def evLinkRetrain : Nat := 0x0F03
def evLinkMismatch : Nat := 0x0F04
def evTodReject : Nat := 0x0F05
def evFlogLost : Nat := 0x0F06
def evUcalInvalid : Nat := 0x0F07
def evManagerChange : Nat := 0x0F08

/-- Every code except SUCCESS and SKIPPED sets ERR on signalled events (R275, R475). -/
def setsErr (status : Nat) : Bool := status ≠ stSuccess && status ≠ stSkipped

/-- Saturating addition at all ones of `w` bits. -/
def satAdd (w a b : Nat) : Nat := min (a + b) (2 ^ w - 1)

/-- Key of a launch event: partition and number (R273). -/
def evKey (p e : Nat) : Nat := p * 2048 + e

/-- A launch-level signal (R273, R275): add 1 modulo 2^20, and set ERR on a failing status. -/
def signalEvent (status : Nat) (ev : SMap Event) (p e : Nat) : SMap Event :=
  SMap.modify Event.init ev (evKey p e)
    (fun x => ⟨(x.count + 1) % 2 ^ 20, x.err || setsErr status⟩)

/-- A wait is met when (counter − value) mod 2^20 is below 2^19 (R273). -/
def waitMet (ev : SMap Event) (p w : Nat) : Bool :=
  ((SMap.get Event.init ev (evKey p (bits w 30 20))).count + 2 ^ 20 - bits w 19 0) % 2 ^ 20 < 2 ^ 19

/-- An entry other than an access-fault report (R469). -/
structure LogFields where
  status : Nat
  source : Nat
  unit : Nat
  master : Nat
  part : Nat
  addr : Nat
  plumb : Nat
  launch : Nat
  queue : Nat
  detail : Nat
deriving DecidableEq, Repr

/-- The 32 bytes of such an entry (R469). -/
def LogFields.bytes (f : LogFields) : List Byte :=
  leBytes 2 f.status ++ leBytes 1 f.source ++ leBytes 1 f.unit ++ leBytes 2 f.master ++ leBytes 2 f.part ++
  leBytes 8 f.addr ++ leBytes 8 f.plumb ++ leBytes 4 f.launch ++ leBytes 2 f.queue ++ leBytes 2 f.detail

/-- UNIT of a tile source: tile ÷ 2 with bit 7 as tile bit 0 (R469). -/
def tileUnit (t : Nat) : Nat := t / 2 + 128 * (t % 2)

/-- Append an entry to one partition's log; a full ring drops and counts it (R469). -/
def elogPut (bytes : List Byte) (p : Part) : Part :=
  if (p.elogHead + 1) % 256 = p.elogTail then { p with elogDrop := satAdd 32 p.elogDrop 1 }
  else { p with elog := SMap.set [] p.elog p.elogHead bytes, elogHead := (p.elogHead + 1) % 256 }

/-- Report to a partition's log and to the owner's (R222, R240, R302); one entry when they are the same. -/
def logBoth (part : Nat) (bytes : List Byte) (ps : SMap Part) : SMap Part :=
  let ps := SMap.modify Part.init ps part (elogPut bytes)
  if part = 0 then ps else SMap.modify Part.init ps 0 (elogPut bytes)

/-- Report to the owner's log only. -/
def logOwner (bytes : List Byte) (ps : SMap Part) : SMap Part := SMap.modify Part.init ps 0 (elogPut bytes)

end Sys2Proof.Machine
end

