-- ==== Sys2Proof/Machine/Hash.lean ====
section
/-! DEFINITION. The standard functions that the spec names: SHAKE256 of FIPS 202 (R7, R440), CRC-32 with the IEEE
polynomial (R199, R347), CRC-16/CCITT-FALSE (R370), Philox-4x32-10 (R7, R112, R341) and GF(2^8) with polynomial
0x11D (R399). The spec cites these by name; their text is that of the standards (log entry 12). -/

namespace Sys2Proof.Machine

/-- One shift step of the reflected CRC-32. -/
def crc32Bit (c : Nat) : Nat := if c % 2 = 1 then (c / 2) ^^^ 0xEDB88320 else c / 2

/-- CRC-32, IEEE polynomial, over a byte string. -/
def crc32 (bs : List Byte) : Nat :=
  (bs.foldl (fun c b => (List.range 8).foldl (fun c _ => crc32Bit c) (c ^^^ b.toNat)) 0xFFFFFFFF) ^^^ 0xFFFFFFFF

/-- One shift step of CRC-16/CCITT-FALSE. -/
def crc16Bit (c : Nat) : Nat := if 0x8000 ≤ c then ((c * 2) ^^^ 0x1021) % 65536 else c * 2

/-- CRC-16/CCITT-FALSE over a byte string. -/
def crc16 (bs : List Byte) : Nat :=
  bs.foldl (fun c b => (List.range 8).foldl (fun c _ => crc16Bit c) (c ^^^ (b.toNat * 256))) 0xFFFF

/-- One Philox round on a counter (four words) and a key (two words). -/
def philoxRound (c : Nat × Nat × Nat × Nat) (k : Nat × Nat) : Nat × Nat × Nat × Nat :=
  let (c0, c1, c2, c3) := c
  let p0 := 0xD2511F53 * c0
  let p1 := 0xCD9E8D57 * c2
  ((p1 / 2 ^ 32) ^^^ c1 ^^^ k.1, p1 % 2 ^ 32, (p0 / 2 ^ 32) ^^^ c3 ^^^ k.2, p0 % 2 ^ 32)

/-- Philox-4x32 with `n` rounds. -/
def philoxRounds : Nat → Nat × Nat × Nat × Nat → Nat × Nat → Nat × Nat × Nat × Nat
  | 0, c, _ => c
  | n + 1, c, k => philoxRounds n (philoxRound c k) ((k.1 + 0x9E3779B9) % 2 ^ 32, (k.2 + 0xBB67AE85) % 2 ^ 32)

/-- Word 0 of Philox-4x32-10. -/
def philox0 (key : Nat × Nat) (ctr : Nat × Nat × Nat × Nat) : Nat := (philoxRounds 10 ctr key).1

/-- Multiplication by 2 in GF(2^8), polynomial 0x11D (R399). -/
def gfDouble (a : Nat) : Nat := if 128 ≤ a then (a * 2) ^^^ 0x11D else a * 2

/-- Multiplication in GF(2^8), by the bits of the second factor. -/
def gfMulAux : Nat → Nat → Nat → Nat
  | 0, _, _ => 0
  | k + 1, a, b => (if b % 2 = 1 then a else 0) ^^^ gfMulAux k (gfDouble a) (b / 2)

def gfMul (a b : Nat) : Nat := gfMulAux 8 a b

/-- `g ^ i` with `g = 2` (R399). -/
def gfPow2 : Nat → Nat
  | 0 => 1
  | i + 1 => gfDouble (gfPow2 i)

/-- `a ^ 254`, the inverse of a non-zero element. -/
def gfInv (a : Nat) : Nat := (List.range 253).foldl (fun r _ => gfMul r a) a

/-- Keccak's 24 round constants. -/
def keccakRC : List U64 :=
  [0x0000000000000001, 0x0000000000008082, 0x800000000000808A, 0x8000000080008000,
   0x000000000000808B, 0x0000000080000001, 0x8000000080008081, 0x8000000000008009,
   0x000000000000008A, 0x0000000000000088, 0x0000000080008009, 0x000000008000000A] ++
  [0x000000008000808B, 0x800000000000008B, 0x8000000000008089, 0x8000000000008003,
   0x8000000000008002, 0x8000000000000080, 0x000000000000800A, 0x800000008000000A,
   0x8000000080008081, 0x8000000000008080, 0x0000000080000001, 0x8000000080008008]

/-- Rotation offsets of lane x + 5y. -/
def keccakRot : List Nat :=
  [0, 1, 62, 28, 27, 36, 44, 6, 55, 20, 3, 10, 43, 25, 39, 41, 45, 15, 21, 8, 18, 2, 61, 56, 14]

/-- One lane of the state, lane x + 5y. -/
def lane (s : List U64) (x y : Nat) : U64 := s.getD (x % 5 + 5 * (y % 5)) 0

/-- One Keccak round. -/
def keccakRound (s : List U64) (rc : U64) : List U64 :=
  let c := (List.range 5).map (fun x => lane s x 0 ^^^ lane s x 1 ^^^ lane s x 2 ^^^ lane s x 3 ^^^ lane s x 4)
  let d := (List.range 5).map (fun x => c.getD ((x + 4) % 5) 0 ^^^ (c.getD ((x + 1) % 5) 0).rotateLeft 1)
  let a := (List.range 25).map (fun i => s.getD i 0 ^^^ d.getD (i % 5) 0)
  -- B[y, 2x + 3y] = rot(A[x, y]); read backwards: new lane (X, Y) comes from x = X + 3Y, y = X
  let b := (List.range 25).map (fun i =>
    let src := ((i % 5 + 3 * (i / 5)) % 5) + 5 * (i % 5)
    (a.getD src 0).rotateLeft (keccakRot.getD src 0))
  let e := (List.range 25).map (fun i =>
    b.getD i 0 ^^^ (~~~(lane b (i % 5 + 1) (i / 5)) &&& lane b (i % 5 + 2) (i / 5)))
  match e with
  | [] => []
  | h :: t => (h ^^^ rc) :: t

/-- Keccak-f[1600]. -/
def keccakF (s : List U64) : List U64 := keccakRC.foldl keccakRound s

/-- The 8-byte little-endian lanes of a block. -/
def lanesOf : Nat → List Byte → List U64
  | 0, _ => []
  | k + 1, bs => BitVec.ofNat 64 (leNat (bs.take 8)) :: lanesOf k (bs.drop 8)

/-- Absorb `k` blocks of 136 bytes. -/
def absorb : Nat → List U64 → List Byte → List U64
  | 0, s, _ => s
  | k + 1, s, bs =>
    let blk := lanesOf 17 bs
    absorb k (keccakF ((List.range 25).map (fun i => s.getD i 0 ^^^ blk.getD i 0))) (bs.drop 136)

/-- Pad by SHAKE's domain bits 1111 and pad10*1 to a multiple of 136 bytes. -/
def shakePad (bs : List Byte) : List Byte :=
  let r := 136 - bs.length % 136
  if r = 1 then bs ++ [0x9F] else bs ++ [0x1F] ++ List.replicate (r - 2) 0 ++ [0x80]

/-- The first 32 bytes of SHAKE256 over a byte string: every hash and measurement of the module (R440). -/
def shake32 (bs : List Byte) : List Byte :=
  let p := shakePad bs
  let s := absorb (p.length / 136) (List.replicate 25 0) p
  (s.take 4).flatMap (fun l => leBytes 8 l.toNat)

end Sys2Proof.Machine
end

