-- ==== Sys2Proof/Machine/Ops.lean ====
section
/-! DEFINITION. The named operations that every meaning is built from: the environment of the data plane, reads and
writes of memory with poison (R221, R222), the address map (R210 to R213), access checks and fault reports (R235 to
R240), the tile read cache (R224, R245), cores, tokens (R193, R194), tile faults and aborts (R203, R205, R207). -/

namespace Sys2Proof.Machine

/-! ### The three outcomes -/

abbrev Out := Host.Outcome State Fault Refusal

/-! ### What the data plane sees of the rest -/

/-- What work sees of the fabric and management planes: Plumb time (R369), the fabric configuration (R354), the
Patch bounds in force (R453), the running clock mode and its IDLE_W (R308), the life-cycle state (R311), and whether the
module is in a READY state and has had no module-fatal fault (R18, R433). -/
structure Env where
  plumb : Nat
  cfg : FabCfg
  aligned : Bool
  rmin : Nat
  rmax : Nat
  idleW : Nat
  lcs : Nat
  prov : Nat
  serving : Bool
deriving DecidableEq, Repr

def lcCode : LcState → Nat
  | .blank => 0 | .test => 1 | .provisioned => 2 | .fieldReturn => 3 | .retired => 4

/-- The READY states of R435. -/
def BootSt.isReady : BootSt → Bool
  | .ready | .degraded | .derated => true
  | _ => false

/-- Frequency of a clock mode in MHz (R35). -/
def clockMhz (mode : Nat) : Nat := if mode = 0 then 850 else if mode = 1 then 720 else 600

/-- The running clock mode (R308): the one whose frequency runs; while the clock is held or glides between them, the
selected one. -/
def runningMode (sh : Shape) (selected : Nat) : Nat :=
  ((List.range 3).find? (fun m => clockMhz m = sh.clockRun)).getD selected

/-- IDLE_W of a clock mode (R304, R308). -/
def Regions.idleW (r : Regions) (mode : Nat) : Nat := r.meterCal.getD mode (Config.idleW mode)

def State.env (s : State) : Env :=
  { plumb := s.fb.plumb.ns, cfg := s.fb.cfg, aligned := s.fb.plumb.aligned,
    rmin := s.mg.sec.mode.rmin, rmax := s.mg.sec.mode.rmax,
    idleW := s.mg.regions.idleW (runningMode s.fb.shape s.mg.sec.mode.clock),
    lcs := lcCode s.mg.fuses.lcs, prov := s.mg.fuses.prov,
    serving := s.mg.boot.st.isReady && !s.dp.fatal }

def State.setDp (s : State) (dp : DataPlane) : State := { s with dp := dp }

/-- A command of the data plane: it acts in a READY state without a module-fatal fault, and leaves the state
unchanged otherwise, since its unit is then not running (R18, R433; log entry 1). -/
def State.work (s : State) (f : Env → DataPlane → DataPlane) : Out :=
  if s.env.serving then .next { s with dp := f s.env s.dp } else .next s

/-- A command of the management plane. -/
def State.onMg (s : State) (f : Mgmt → Mgmt) : Out := .next { s with mg := f s.mg }

/-- A command of the fabric plane. -/
def State.onFb (s : State) (f : Fabric → Fabric) : Out := .next { s with fb := f s.fb }

/-- The hub runs: powered, out of reset, Primer's check passed, and no module-fatal fault (R18, R412). -/
def State.awake (s : State) : Bool := s.mg.boot.st ≠ .off && s.mg.boot.st ≠ .mute && !s.dp.fatal

/-- A command of the hub's own units, which act from bring-up on; nothing happens while the hub does not run. -/
def State.hub (s : State) (f : State → State) : Out := if s.awake then .next (f s) else .next s

/-- An event entry in the owner's log, with no launch (R469). -/
def DataPlane.ownerEvent (dp : DataPlane) (code source unit addr plumb detail : Nat) : DataPlane :=
  { dp with parts := logOwner (LogFields.bytes ⟨code, source, unit, 0xFFFF, 0xFFFF, addr, plumb, 0, 0xFFFF, detail⟩) dp.parts }

/-- A message to another module, on the control channel unless another is named (R30, R350). -/
def DataPlane.send (dp : DataPlane) (kind : String) (dest : Nat) (args : List Nat) (data : List Byte) (vc : Nat := 0)
    (poison : Bool := false) : DataPlane :=
  { dp with fabOut := dp.fabOut ++ [⟨kind, dest, args, data, vc, poison⟩] }

/-- Add to a telemetry counter; counters saturate at 64 bits (R458). -/
def DataPlane.count (dp : DataPlane) (off n : Nat) : DataPlane :=
  { dp with telem := SMap.modify 0 dp.telem off (fun v => satAdd 64 v n) }

/-- A register word without a home of its own, by function and BAR0 offset (R461). -/
def DataPlane.regWord (dp : DataPlane) (fn off : Nat) : Nat := (SMap.get 0 dp.regs (regKey fn off)).toNat
def DataPlane.setRegWord (dp : DataPlane) (fn off v : Nat) : DataPlane :=
  { dp with regs := SMap.set 0 dp.regs (regKey fn off) (BitVec.ofNat 32 v) }

/-- A Falcon-1024 signature in padded form, 1,280 bytes (R311, R440). -/
def signature (key : Nat) (msg : List Byte) : List Byte := (Config.falconSign key msg ++ List.replicate 1280 0).take 1280

/-! ### MSI-X -/

/-- Offset of a vector's control word in the MSI-X table, of at most 2,048 entries (R463). Its word is kept as its difference from 1, so that a
listed word of 0 is the Mask bit set. -/
def msixControl (vec : Nat) : Nat := 0x10000 + 16 * (vec % 2048) + 12

/-- Offset of the word of the pending-bit array that holds a vector's bit (R463, R464). -/
def msixPending (fn vec : Nat) : Nat := (if fn = 0 then 0x18000 else 0x10400) + 4 * (vec / 32 % 64)

/-- Set or clear a vector's pending bit. -/
def DataPlane.setPending (dp : DataPlane) (fn vec : Nat) (v : Bool) : DataPlane :=
  let w := dp.regWord fn (msixPending fn vec)
  dp.setRegWord fn (msixPending fn vec) (if v then w ||| 2 ^ (vec % 32) else if bit w (vec % 32) then w - 2 ^ (vec % 32) else w)

/-- Raise an MSI-X vector of a function (R284): a masked vector's message waits in the pending-bit array. -/
def DataPlane.raise (dp : DataPlane) (fn vec : Nat) : DataPlane :=
  if dp.regWord fn (msixControl vec) = 0 then dp.setPending fn vec true else { dp with irqs := dp.irqs ++ [(fn, vec)] }

/-- A vector that is no longer masked sends the message that it holds. -/
def DataPlane.unmask (dp : DataPlane) (fn vec : Nat) : DataPlane :=
  if dp.regWord fn (msixControl vec) ≠ 0 && bit (dp.regWord fn (msixPending fn vec)) (vec % 32) then
    (dp.setPending fn vec false).raise fn vec
  else dp

/-! ### Memory -/

/-- One byte of a memory: an unlisted address reads 0 (R218, R422). -/
def byteAt (m : List Host.Cell) (a : Nat) : Byte := SMap.get 0 m a

/-- `n` bytes from an address. -/
def readBytes (m : List Host.Cell) (a n : Nat) : List Byte := (List.range n).map (fun i => byteAt m (a + i))

/-- A little-endian number of `n` bytes. -/
def readNat (m : List Host.Cell) (a n : Nat) : Nat := leNat (readBytes m a n)

/-- Write bytes at ascending addresses; only the bytes named change (R253). -/
def writeBytes : List Host.Cell → Nat → List Byte → List Host.Cell
  | m, _, [] => m
  | m, a, b :: bs => writeBytes (SMap.set 0 m a b) (a + 1) bs

/-- The granules of `[a, a + n)`. -/
def granules (a n : Nat) : List Nat :=
  if n = 0 then [] else (List.range ((a + n - 1) / 64 - a / 64 + 1)).map (· + a / 64)

/-- The first poisoned granule that a read of `[a, a + n)` meets (R221, R222). -/
def poisonedAt (m : MemSys) (a n : Nat) : Option Nat := (granules a n).find? (fun g => SMap.get false m.poison g)

/-- Mark or clear a granule. -/
def setPoison (p : SMap Bool) (g : Nat) (v : Bool) : SMap Bool := SMap.set false p g v

/-- A write to device memory: the bytes change, and each granule that the write covers whole loses its poison
(R222). -/
def MemSys.write (m : MemSys) (a : Nat) (bs : List Byte) : MemSys :=
  { m with
    dev := writeBytes m.dev a bs
    poison := ((granules a bs.length).filter (fun g => a ≤ 64 * g && 64 * g + 64 ≤ a + bs.length)).foldl
      (fun p g => setPoison p g false) m.poison }

/-- Zero `[lo, hi)` with valid check bits (R218, R299, R300). -/
def MemSys.zero (m : MemSys) (lo hi : Nat) : MemSys :=
  { m with dev := SMap.clear m.dev lo hi, poison := SMap.clear m.poison (ceilDiv lo 64) (hi / 64) }

/-- Write `n` undefined bytes: fresh free values, one for each byte (R91, R287, R325). -/
def freshBytes (k n : Nat) : List Byte := (List.range n).map (fun i => Config.freeByte (k + i))

/-! ### The address map -/

def tileStoreBase : Nat := 0x030000000000
def tileWindow : Nat := 0x400000
def tileBacked : Nat := 0x280000
def hbmSize : Nat := 0x10000000000

/-- Base of tile `n`'s window (R20). -/
def tileBase (n : Nat) : Nat := tileStoreBase + n * tileWindow

/-- The windows of R210. -/
inductive Window where
  | hbm
  | shared (d : Nat)
  | tile (n : Nat)
  | hub
  | priv
  | none
deriving DecidableEq, Repr

def windowOf (a : Nat) : Window :=
  if a < hbmSize then .hbm
  else if 0x020000000000 ≤ a && a < 0x020010000000 then .shared 0
  else if 0x020010000000 ≤ a && a < 0x020020000000 then .shared 1
  else if tileStoreBase ≤ a && a < tileStoreBase + 168 * tileWindow then .tile ((a - tileStoreBase) / tileWindow)
  else if 0x040000000000 ≤ a && a < 0x040004000000 then .hub
  else if 0x070000000000 ≤ a && a < 0x080000000000 then .priv
  else .none

/-- TARGET of a fault report (R240). -/
def Window.code : Window → Nat
  | .hbm => 0 | .shared 0 => 1 | .shared _ => 2 | .tile _ => 3 | .hub => 4 | .priv => 6 | .none => 6

/-- Effective width of a tile: 0 when disabled or when there is no such tile (R25, R88). -/
def DataPlane.width (dp : DataPlane) (t : Nat) : Nat := if t < 168 then SMap.get 128 dp.widths t else 0

/-- A tile that the Scrim map leaves enabled (R25). -/
def DataPlane.enabled (dp : DataPlane) (t : Nat) : Bool := dp.width t ≠ 0

/-- Whether a byte is backed (R20, R210). -/
def backed (dp : DataPlane) (a : Nat) : Bool :=
  match windowOf a with
  | .hbm => true
  | .shared d => a - (0x020000000000 + d * 0x10000000) < 0x6000000
  | .tile n => (a - tileStoreBase) % tileWindow < tileBacked && dp.enabled n
  | .hub => a < 0x040003000000
  | .priv => false
  | .none => false

/-- Target number of an access table (R237): HBM, the shared stores, the hub registers, each tile window. -/
def aclTarget : Window → Nat
  | .hbm => 0 | .shared 0 => 1 | .shared _ => 2 | .hub => 3 | .tile n => 4 + n | .priv => 255 | .none => 255

/-- Key of an access-table entry. -/
def aclKey (cls target idx : Nat) : Nat := (cls * 256 + target) * 64 + idx

/-- Pages of `[a, a + n)`. -/
def pagesOf (a n : Nat) : List Nat :=
  if n = 0 then [] else (List.range ((a + n - 1) / 4096 - a / 4096 + 1)).map (· + a / 4096)

def AclEntry.covers (e : AclEntry) (page : Nat) : Bool := e.v && e.base ≤ page && page ≤ e.limit

def AclEntry.grants (e : AclEntry) : AccessKind → Bool
  | .read => e.r | .write => e.w | .atomic => e.a

def reasonUnmapped : Nat := 1
def reasonNoRegion : Nat := 2
def reasonPermission : Nat := 3
def reasonRemote : Nat := 4
def reasonPrivate : Nat := 5

/-- Check one page against a class's entries (R238): `none` when permitted, else the reason. -/
def pageCheck (acl : SMap AclEntry) (cls target page : Nat) (k : AccessKind) : Option Nat :=
  let es := (List.range 64).map (fun i => SMap.get AclEntry.none acl (aclKey cls target i))
  if es.any (fun e => e.covers page && e.grants k) then none
  else if es.any (fun e => e.covers page) then some reasonPermission
  else some reasonNoRegion

/-- Check a device-local access of `n` bytes at `a` by a class; `own` is the issuing tile, whose own store needs no
check (R211, R238). Answers the first refusal as (reason, address). -/
def accessCheck (dp : DataPlane) (cls : Nat) (own : Option Nat) (k : AccessKind) (a n : Nat) : Option (Nat × Nat) :=
  (pagesOf a n).findSome? (fun pg =>
    let at_ := max a (pg * 4096)
    if windowOf at_ = .priv then some (reasonPrivate, at_)
    else if !backed dp at_ then some (reasonUnmapped, at_)
    else if some (windowOf at_) = own.map Window.tile then none
    else (pageCheck dp.mem.acl cls (aclTarget (windowOf at_)) pg k).map (fun r => (r, at_)))

/-- Where a 64-bit address leads (R212). -/
inductive Loc where
  | dev (a : Nat)
  | remote (home a : Nat)
  | bad
deriving DecidableEq, Repr

/-- A device ID lies within the system dimensions (R212, R354): x [14:10], y [9:5], z [4:0]. -/
def idInSystem (c : FabCfg) (id : Nat) : Bool := bits id 14 10 < c.dx && bits id 9 5 < c.dy && bits id 4 0 < c.dz

/-- Resolve an address as issued (R212). -/
def resolve (c : FabCfg) (a : Nat) : Loc :=
  if bit a 63 then
    let id := bits a 62 48
    if id = c.id then .dev (bits a 47 0)
    else if idInSystem c id then .remote id (bits a 47 0) else .bad
  else if bits a 62 48 ≠ 0 then .bad else .dev a

/-! ### Faults of accesses -/

/-- Why an engine or core instruction fails: its status, the access or poison that the logs report, and the address of a
fault without either. -/
structure EFault where
  status : Nat
  access : Option (Nat × AccessKind × Nat) := none
  poison : Option Nat := none
  at_ : Option Nat := none
deriving DecidableEq, Repr

/-- A failure that writes no log entry of its own. -/
def EFault.plain (status : Nat) : EFault := { status }

/-- The access fault of R20 and R211, with reason, kind and address. -/
def EFault.access_ (reason : Nat) (k : AccessKind) (a : Nat) : EFault :=
  { status := stAccessFault, access := some (reason, k, a) }

/-- Poison consumed at a granule (R222). -/
def EFault.poison_ (g : Nat) : EFault := { status := stPoisonConsumed, poison := some (64 * g) }

/-- The address that a tile's fault record gives (R207, R503). -/
def EFault.address (f : EFault) : Nat :=
  match f.access with
  | some (_, _, a) => a
  | none => (f.poison.orElse (fun _ => f.at_)).getD 0

def accessCode : AccessKind → Nat
  | .read => 0 | .write => 1 | .atomic => 2

/-- A core's alias of its own tile store (R183). -/
def aliasBase : Nat := 0x070010000000
def inAlias (a : Nat) : Bool := aliasBase ≤ a && a < aliasBase + tileWindow

/-- TARGET of an address as issued (R240): 3 for a tile core's alias of its tile store, 5 for another module, the
window's code otherwise. -/
def targetCode (c : FabCfg) (reason master a : Nat) : Nat :=
  if inAlias a && reason ≠ reasonPrivate && master < 0x540 then 3
  else if bit a 63 then (if bits a 62 48 = c.id then (windowOf (bits a 47 0)).code else 5)
  else if bits a 62 48 ≠ 0 then 6 else (windowOf a).code

/-- The 32-byte fault report of R240. -/
def faultReport (env : Env) (reason : Nat) (k : AccessKind) (master cls a launch queue : Nat) : List Byte :=
  leBytes 2 stAccessFault ++ leBytes 1 reason ++ leBytes 1 (accessCode k) ++ leBytes 2 master ++ leBytes 1 cls ++
  leBytes 1 (targetCode env.cfg reason master a) ++ leBytes 8 a ++ leBytes 8 env.plumb ++ leBytes 4 launch ++ leBytes 2 queue ++
  leBytes 2 0

/-- Write the reports that a failure calls for to the logs of the partition and the owner (R222, R240). -/
def logFault (env : Env) (part master cls launch queue source unit : Nat) (f : EFault) (ps : SMap Part) : SMap Part :=
  match f.access, f.poison with
  | some (r, k, a), _ => logBoth part (faultReport env r k master cls a launch queue) ps
  | none, some a =>
    logBoth part (LogFields.bytes ⟨stPoisonConsumed, source, unit, master, part, a, env.plumb, launch, queue, 0⟩) ps
  | none, none => ps

/-- The access check of one range as an engine's failure. -/
def checkAccess (dp : DataPlane) (cls : Nat) (own : Option Nat) (k : AccessKind) (a n : Nat) : Except EFault Unit :=
  match accessCheck dp cls own k a n with
  | some (r, at_) => .error (EFault.access_ r k at_)
  | none => .ok ()

/-- The failure with the address as issued, where `a` is the local address of `issued` (R240). -/
def EFault.asIssued (issued a : Nat) (f : EFault) : EFault :=
  { f with access := f.access.map (fun x => (x.1, x.2.1, issued + (x.2.2 - a))) }

/-- The access check of one range that was issued as another address. -/
def checkIssued (dp : DataPlane) (cls : Nat) (own : Option Nat) (k : AccessKind) (issued a n : Nat) : Except EFault Unit :=
  match checkAccess dp cls own k a n with
  | .error f => .error (f.asIssued issued a)
  | .ok _ => .ok ()

/-- Read device memory at its point of coherence with its access check and poison check (R221, R238); the access
check comes first (R222). -/
def checkedRead (dp : DataPlane) (cls : Nat) (own : Option Nat) (a n : Nat) : Except EFault (List Byte) := do
  checkAccess dp cls own .read a n
  match poisonedAt dp.mem a n with
  | some g => throw (EFault.poison_ g)
  | none => pure (readBytes dp.mem.dev a n)

/-- Check ranges in order for one kind of access. -/
def checkRanges (dp : DataPlane) (cls : Nat) (own : Option Nat) (k : AccessKind) :
    List (Nat × Nat) → Except EFault Unit
  | [] => .ok ()
  | (a, n) :: r => do
    checkAccess dp cls own k a n
    checkRanges dp cls own k r

/-! ### Tiles, cores, partitions -/

def DataPlane.tile (dp : DataPlane) (t : Nat) : Tile := SMap.get Tile.init dp.tiles t
def DataPlane.setTile (dp : DataPlane) (t : Nat) (x : Tile) : DataPlane :=
  { dp with tiles := SMap.set Tile.init dp.tiles t x }
def DataPlane.part (dp : DataPlane) (p : Nat) : Part := SMap.get Part.init dp.parts p
def DataPlane.setPart (dp : DataPlane) (p : Nat) (x : Part) : DataPlane :=
  { dp with parts := SMap.set Part.init dp.parts p x }
def DataPlane.queue (dp : DataPlane) (q : Nat) : Queue := SMap.get Queue.init dp.queues q
def DataPlane.setQueue (dp : DataPlane) (q : Nat) (x : Queue) : DataPlane :=
  { dp with queues := SMap.set Queue.init dp.queues q x }

def Tile.core (x : Tile) (c : Nat) : Core := SMap.get Core.init x.cores c
def Tile.setCore (x : Tile) (c : Nat) (k : Core) : Tile := { x with cores := SMap.set Core.init x.cores c k }
def Tile.engine (x : Tile) (e : Nat) : Engine := SMap.get Engine.init x.engines e
def Tile.setEngine (x : Tile) (e : Nat) (k : Engine) : Tile := { x with engines := SMap.set Engine.init x.engines e k }
def Tile.token (x : Tile) (t : Nat) : Nat := SMap.get 0 x.tokens t
def Tile.setToken (x : Tile) (t n : Nat) : Tile := { x with tokens := SMap.set 0 x.tokens t n }

/-- The core a command names. -/
def DataPlane.core (dp : DataPlane) : CoreId → Core
  | .tile t c => (dp.tile t).core c
  | .hub h => SMap.get Core.init dp.hubCores h

def DataPlane.setCore (dp : DataPlane) (c : CoreId) (k : Core) : DataPlane :=
  match c with
  | .tile t i => dp.setTile t ((dp.tile t).setCore i k)
  | .hub h => { dp with hubCores := SMap.set Core.init dp.hubCores h k }

/-- Read a general register; x0 reads 0 (R179). -/
def Core.reg (k : Core) (r : Reg) : U64 := if r = 0 then 0 else SMap.get 0 k.regs r.val

/-- Write a general register; a write to x0 is discarded (R179). -/
def Core.setReg (k : Core) (r : Reg) (v : U64) : Core :=
  if r = 0 then k else { k with regs := SMap.set 0 k.regs r.val v }

/-- The partition that owns a tile: the enabled partition whose plan lists it (R236). -/
def DataPlane.owner (dp : DataPlane) (t : Nat) : Option Nat :=
  (List.range 17).find? (fun p => (dp.part p).st ≠ .disabled && (dp.part p).tiles.contains t)

/-- The access class of a tile's engines (R236); 18, which has no entries, when no partition owns the tile. -/
def DataPlane.cls (dp : DataPlane) (t : Nat) : Nat := (dp.owner t).getD 18

/-- Change a partition's usage counters while its record is open (R307, R310). -/
def DataPlane.addUsage (dp : DataPlane) (p : Nat) (f : Usage → Usage) : DataPlane :=
  { dp with meter := { dp.meter with usage := SMap.modify Usage.init dp.meter.usage p f } }

/-- Bytes of a range that lie in HBM. -/
def hbmBytes (a n : Nat) : Nat := if a < hbmSize then n else 0

/-- The launch a tile runs, as (launch sequence, queue) for reports; (0, 0xFFFF) when it runs none (R240). -/
def Tile.launchIds (x : Tile) : Nat × Nat :=
  match x.launch with
  | some l => (l.seq, l.q)
  | none => (0, 0xFFFF)

/-! ### The tile read cache -/

/-- The set of a line: 512 sets (R224). The index bits are the model's choice (log entry 6). -/
def cacheSet (line : Nat) : Nat := line % 512

/-- Look a line up. -/
def cacheFind (x : Tile) (line : Nat) : Option (List Byte) := (x.cache.find? (fun l => l.line = line)).map (·.data)

/-- The data that a non-volatile read of a line takes without going to its point of coherence: the cached line's, or that
of a fill in flight which no invalidation has met, since the read shares its request (R224, R244). -/
def lineData (x : Tile) (line : Nat) : Option (List Byte) :=
  match cacheFind x line with
  | some d => some d
  | none => (x.fills.find? (fun f => f.line = line && !f.dropped)).map (·.data)

/-- A non-volatile byte as a tile reads it: its line's byte for HBM when the tile holds the line (R224, R245). -/
def cachedByte (dp : DataPlane) (x : Tile) (a : Nat) : Byte :=
  if a < hbmSize then
    match lineData x (a / 128) with
    | some d => d.getD (a % 128) 0
    | none => byteAt dp.mem.dev a
  else byteAt dp.mem.dev a

/-- The first poisoned granule that a cached read meets: a granule of a line that the tile holds was read whole (R221,
R224). -/
def cachedPoison (dp : DataPlane) (x : Tile) (a n : Nat) : Option Nat :=
  (granules a n).find? (fun g =>
    SMap.get false dp.mem.poison g && !(64 * g < hbmSize && (lineData x (g / 2)).isSome))

/-- Check cached reads of ranges, in order: the access check of a range, then its poison (R221, R222, R238). -/
def checkReads (dp : DataPlane) (cls t : Nat) : List (Nat × Nat) → Except EFault Unit
  | [] => .ok ()
  | (a, n) :: r => do
    checkAccess dp cls (some t) .read a n
    match cachedPoison dp (dp.tile t) a n with
    | some g => throw (EFault.poison_ g)
    | none => checkReads dp cls t r

/-- Lines of `[a, a + n)` that lie in HBM. -/
def hbmLines (a n : Nat) : List Nat :=
  if n = 0 || hbmSize ≤ a then [] else (List.range ((a + n - 1) / 128 - a / 128 + 1)).map (· + a / 128)

/-- A cached read touches its lines: a present line becomes the most recent, and an absent one is requested with the
data it has at its point of coherence (R224). A line with a poisoned granule is not filled, since no data of it may
be consumed later (R221). -/
def touchLine (mem : MemSys) (x : Tile) (line : Nat) : Tile :=
  match x.cache.find? (fun l => l.line = line) with
  | some l => { x with cache := l :: x.cache.filter (fun k => k.line ≠ line) }
  | none =>
    if x.fills.any (fun f => f.line = line && !f.dropped) || (poisonedAt mem (128 * line) 128).isSome then x
    else { x with fills := x.fills ++ [⟨line, readBytes mem.dev (128 * line) 128, false⟩] }

def touchLines (mem : MemSys) (x : Tile) (a n : Nat) : Tile := (hbmLines a n).foldl (touchLine mem) x

/-- Invalidate the whole cache; fills in flight will be discarded (R224, R259). -/
def Tile.invalidate (x : Tile) : Tile :=
  { x with cache := [], fills := x.fills.map (fun f => { f with dropped := true }) }

/-- Invalidate the lines that the tile's own write touches (R196, R224). -/
def Tile.invalidateRange (x : Tile) (a n : Nat) : Tile :=
  let hit := fun line => 128 * line < a + n && a < 128 * line + 128
  { x with
    cache := x.cache.filter (fun l => !hit l.line)
    fills := x.fills.map (fun f => if hit f.line then { f with dropped := true } else f) }

/-- An agent other than those of an atomic's scope: `agent` is a tile, or none for a hub engine, a host or another module
(R256). -/
def NarrowAtomic.outside (x : NarrowAtomic) (agent : Option Nat) : Bool :=
  match x.core, agent with
  | .tile t _, some n => if x.die then n / 84 ≠ t / 84 else n ≠ t
  | _, _ => true

/-- The atomics in progress that an access of `[a, a + n)` by an agent shows to be too narrow (R257). -/
def DataPlane.tooNarrow (dp : DataPlane) (agent : Option Nat) (a n : Nat) : List NarrowAtomic :=
  dp.narrow.filter (fun x => x.outside agent && x.addr < a + n && a < x.addr + x.len)

/-- An access by an agent: the value at the location of a too-narrow atomic is undefined (R257). -/
def DataPlane.stir (dp : DataPlane) (agent : Option Nat) (a n : Nat) : DataPlane :=
  (dp.tooNarrow agent a n).foldl (fun dp x =>
    { dp with mem := dp.mem.write x.addr (freshBytes dp.free x.len), free := dp.free + x.len }) dp

/-- A tile's own write: memory changes and the tile's cache loses the lines touched (R196). -/
def DataPlane.tileWrite (dp : DataPlane) (t a : Nat) (bs : List Byte) : DataPlane :=
  let dp := { dp with mem := dp.mem.write a bs }.stir (some t) a bs.length
  let dp := dp.setTile t ((dp.tile t).invalidateRange a bs.length)
  dp.addUsage (dp.cls t) (fun u => { u with hbmWr := u.hbmWr + hbmBytes a bs.length })

/-- A list of writes, in order. -/
def DataPlane.tileWrites (dp : DataPlane) (t : Nat) : List (Nat × List Byte) → DataPlane
  | [] => dp
  | (a, bs) :: r => DataPlane.tileWrites (dp.tileWrite t a bs) t r

/-- Leave ranges undefined: their bytes become free values (R91, R287). -/
def DataPlane.undefine (dp : DataPlane) (t : Nat) : List (Nat × Nat) → DataPlane
  | [] => dp
  | (a, n) :: r =>
    let dp := { dp with mem := dp.mem.write a (freshBytes dp.free n), free := dp.free + n }
    DataPlane.undefine (dp.setTile t ((dp.tile t).invalidateRange a n)) t r

/-- Bytes of HBM that a cached read of `[a, a + n)` fetches: a line at a time, for the lines that the tile does not hold
(R224, R307). -/
def missedBytes (x : Tile) (a n : Nat) : Nat := 128 * ((hbmLines a n).filter (fun l => (lineData x l).isNone)).length

/-- Cached reads of ranges, as their effect on the cache and the usage counters. -/
def DataPlane.touch (dp : DataPlane) (t : Nat) : List (Nat × Nat) → DataPlane
  | [] => dp
  | (a, n) :: r =>
    let missed := missedBytes (dp.tile t) a n
    let dp := (dp.setTile t (touchLines dp.mem (dp.tile t) a n)).stir (some t) a n
    DataPlane.touch (dp.addUsage (dp.cls t) (fun u => { u with hbmRd := u.hbmRd + missed })) t r

/-! ### Remote accesses -/

/-- Access class of a core (R236): the owner of its tile, or the partition whose work a hub core does. -/
def DataPlane.coreCls (dp : DataPlane) : CoreId → Nat
  | .tile t _ => dp.cls t
  | .hub h => Config.hubCoreWork h

/-- The fabric global address of a local address of a module (R212). -/
def globalAddr (home a : Nat) : Nat := 2 ^ 63 + home * 2 ^ 48 + a

/-- The partition for which a remote request is made (R236). -/
def RemoteOwner.cls (dp : DataPlane) : RemoteOwner → Nat
  | .core c => dp.coreCls c
  | .dma t _ _ _ => dp.cls t
  | .skim t => dp.cls t

/-- Requests travel on VC 1, and those of DMA copies on VC 5 (R30). -/
def RemoteOwner.channel : RemoteOwner → Nat
  | .dma .. => 5
  | _ => 1

/-- Send a request to another module (R212, R362): it takes the next tag of that home module, and the issuer waits
for the response to that tag. `args` starts with the address. The data that it sends over Jothen is counted (R307). -/
def DataPlane.sendRemote (dp : DataPlane) (home : Nat) (kind : AccessKind) (owner : RemoteOwner) (args : List Nat)
    (data : List Byte) (poison : Bool := false) : DataPlane :=
  let tag := SMap.get 0 dp.tagNext home
  let dp := dp.addUsage (owner.cls dp) (fun u => { u with fabTx := u.fabTx + data.length })
  { dp with
    tagNext := SMap.set 0 dp.tagNext home ((tag + 1) % 2 ^ 32)
    remoteOut := dp.remoteOut ++ [⟨tag, home, globalAddr home (args.headD 0), kind, owner⟩]
    fabOut := dp.fabOut ++ [⟨"request", home, tag :: accessCode kind :: args, data, owner.channel, poison⟩] }

/-! ### Tokens -/

/-- The engines that a stream feeds, in waiter order (R177, R194). -/
def streamEngines : Nat → List Nat
  | 7 => [7, 8]
  | s => [s]

/-- The stream that feeds an engine. -/
def engineStream (e : Nat) : Nat := if e = 8 then 7 else e

/-- Whether an entry's wait tokens are available; one token named twice must hold 2 (R193). -/
def canTake (x : Tile) (e : QEntry) : Bool :=
  match e.wa, e.wb with
  | some a, some b => if a = b then 2 ≤ x.token a else 1 ≤ x.token a && 1 ≤ x.token b
  | some a, none => 1 ≤ x.token a
  | none, some b => 1 ≤ x.token b
  | none, none => true

/-- Decrement a token. -/
def Tile.takeToken (x : Tile) : Option Nat → Tile
  | some t => x.setToken t (x.token t - 1)
  | none => x

/-- Grant an engine's head instruction its tokens when they are all available (R193). -/
def grantHead (x : Tile) (e : Nat) : Tile :=
  match (x.engine e).queue with
  | h :: r =>
    if !h.granted && canTake x h then
      let x := (x.takeToken h.wa).takeToken h.wb
      x.setEngine e { x.engine e with queue := { h with granted := true } :: r }
    else x
  | [] => x

/-- A core waiting in TOKWAIT takes its token and goes on (R193). -/
def grantCore (plumb : Nat) (x : Tile) (c : Nat) : Tile :=
  match (x.core c).st with
  | .tokWait t =>
    if 1 ≤ x.token t then
      (x.setToken t (x.token t - 1)).setCore c { x.core c with st := .running, pc := (x.core c).pc + 4, wdStart := plumb }
    else x
  | _ => x

/-- Serve the waiters of one stream: its core before its engines (R194). -/
def serveStream (plumb : Nat) (x : Tile) (s : Nat) : Tile := (streamEngines s).foldl grantHead (grantCore plumb x s)

/-- Give available tokens to the waiters in ascending stream order (R194). -/
def settleTokens (plumb : Nat) (x : Tile) : Tile := (List.range 8).foldl (serveStream plumb) x

/-! ### Tile faults and aborts -/

/-- A core that still runs its program (R202, R205). -/
def CoreStatus.live : CoreStatus → Bool
  | .idle => false | .exited => false | .faulted => false
  | _ => true

/-- Every core stops at its next instruction boundary (R204). -/
def Tile.stopCores (x : Tile) : Tile :=
  { x with cores := x.cores.map (fun c => (c.1, if c.2.st.live then { c.2 with st := .faulted } else c.2)) }

/-- An engine to which an abort comes discards its queue and stops at its preemption point (R205): a COPY issues no new
chunk (R233). -/
def Engine.abort (e : Engine) : Engine :=
  { queue := [], run := e.run.map (fun r => { r with todo := r.todo.take 1 }), stopping := e.run.isSome }

/-- Whether every engine of the tile has stopped. -/
def Tile.quiet (x : Tile) : Bool := (List.range 9).all (fun e => (x.engine e).queue.isEmpty && (x.engine e).run.isNone)

/-- A tile whose cores and engines have all stopped has acknowledged (R205). -/
def Tile.settleStop (x : Tile) : Tile := if x.phase = .stopping && x.quiet then { x with phase := .stopped } else x

/-- Stop a tile's own work as for an abort (R203, R205): audits in progress are discarded (R115). -/
def Tile.stop (x : Tile) : Tile :=
  let x := x.stopCores
  let x := (List.range 9).foldl (fun x e => x.setEngine e (x.engine e).abort) x
  Tile.settleStop { x with phase := .stopping, patchBlocks := [] }

/-- Record the tile's first fault and stop it (R203, R207). -/
def Tile.faultStop (x : Tile) (f : FaultRec) : Tile :=
  Tile.stop { x with fault := some (x.fault.getD f) }

/-- An instruction of engine `e` is refused or fails (R203): reports are logged, and the tile stops. -/
def engineFail (env : Env) (dp : DataPlane) (t e sub : Nat) (q : QEntry) (f : EFault) : DataPlane :=
  let x := dp.tile t
  let (l, qn) := x.launchIds
  let cls := dp.cls t
  let dp := { dp with parts := logFault env cls (8 * t + sub) cls l qn 0 (tileUnit t) f dp.parts }
  dp.setTile t (x.faultStop ⟨f.status, engineStream e, q.index, 0, f.address, env.plumb⟩)

/-- Master ID of a core (R235). -/
def coreMaster : CoreId → Nat
  | .tile t _ => 8 * t
  | .hub h => 0x604 + h / 16

/-- Launch sequence and queue that a core's reports name. -/
def DataPlane.coreIds (dp : DataPlane) : CoreId → Nat × Nat
  | .tile t _ => (dp.tile t).launchIds
  | .hub _ => (0, 0xFFFF)

/-- The report of a core fault reaches the partition's error log (R207). `detail` is TRAP's code. -/
def coreFaultLog (env : Env) (dp : DataPlane) (c : CoreId) (f : EFault) (detail : Nat) : DataPlane :=
  let k := dp.core c
  let cls := dp.coreCls c
  let ids := dp.coreIds c
  let src := match c with
    | .tile t _ => (0, tileUnit t)
    | .hub _ => (1, coreMaster c % 0x100)
  let ps := match f.access, f.poison with
    | none, none => logBoth cls (LogFields.bytes
        ⟨f.status, src.1, src.2, coreMaster c, cls, f.at_.getD k.pc, env.plumb, ids.1, ids.2, detail⟩) dp.parts
    | _, _ => logFault env cls (coreMaster c) cls ids.1 ids.2 src.1 src.2 f dp.parts
  { dp with parts := ps }

/-- The record of a fault of a tile's core (R207, R503). -/
def coreRecord (env : Env) (k : Core) (i : Nat) (f : EFault) : FaultRec := ⟨f.status, i, k.issued, k.pc, f.address, env.plumb⟩

/-- A core fault (R207): it is reported and the tile stops; a hub core stops itself. -/
def coreFault (env : Env) (dp : DataPlane) (c : CoreId) (f : EFault) (detail : Nat) : DataPlane :=
  let k := dp.core c
  let dp := coreFaultLog env dp c f detail
  match c with
  | .hub _ => dp.setCore c { k with st := .faulted }
  | .tile t i => dp.setTile t ((dp.tile t).faultStop (coreRecord env k i f))

/-- A core fault in the cycle in which its tile has stopped for another core's: it writes its own log entry, and the tile's
record names the core of lowest stream number (R207). -/
def coreFaultToo (env : Env) (dp : DataPlane) (t i : Nat) (f : EFault) : DataPlane :=
  let k := (dp.tile t).core i
  let dp := coreFaultLog env dp (.tile t i) f 0
  let x := dp.tile t
  dp.setTile t { x with fault := x.fault.map (fun r => if i < r.stream then coreRecord env k i f else r) }

/-! ### Engines -/

/-- The pieces of a write that lie in one aligned 64-byte granule each (R252). -/
def granuleWrites (host : Bool) (a : Nat) (bs : List Byte) (bad : Nat → Bool) : List EWrite :=
  (granules a bs.length).map (fun g =>
    let lo := max a (64 * g)
    ⟨host, lo, (bs.drop (lo - a)).take (64 * g + 64 - lo), bad g, 0⟩)

/-- Pieces of device writes that carry no poison. -/
def deviceWrites (ws : List (Nat × List Byte)) : List EWrite :=
  ws.flatMap (fun w => granuleWrites false w.1 w.2 (fun _ => false))

/-- Give each piece its own free value, counting up from `k`. -/
def numberWrites (k : Nat) : List EWrite → List EWrite
  | [] => []
  | w :: r => { w with key := k } :: numberWrites (k + 1) r

def numberChunks (k : Nat) : List (List EWrite) → List (List EWrite)
  | [] => []
  | c :: r => numberWrites k c :: numberChunks (k + c.length) r

/-- A reader sees the piece before the instruction completes (R252): a free value. -/
def EWrite.early (w : EWrite) : Bool := (Config.freeByte w.key).getLsbD 0

/-- Key of a host page as a function reaches it. -/
def hostPage (fn page : Nat) : Nat := fn * 2 ^ 52 + page

/-- Accesses with a function's requester ID reach host memory unless the link is down or the IOMMU refuses a page (R234; log entry
72). -/
def hostReach (dp : DataPlane) (fn a n : Nat) : Bool :=
  !dp.pcieDown && (pagesOf a n).all (fun p => !SMap.get false dp.mem.hostRefused (hostPage fn p))

/-- A posted write to host memory with a function's requester ID, with the EP bit when the data is poisoned (R221, R234). -/
def DataPlane.hostWrite (dp : DataPlane) (fn a : Nat) (bs : List Byte) (bad : Bool) : DataPlane :=
  if hostReach dp fn a bs.length then
    { dp with mem := { dp.mem with
        host := writeBytes dp.mem.host a bs
        hostEp := (granules a bs.length).foldl (fun p g => SMap.set false p g bad) dp.mem.hostEp } }
  else dp

/-- Record a PCIe error of a function (R234). -/
def DataPlane.recordAer (dp : DataPlane) (fn : Nat) (k : AerError) : DataPlane := { dp with aer := dp.aer ++ [⟨fn, k⟩] }

/-- Poison granules of device memory. -/
def DataPlane.poisonGranules (dp : DataPlane) (gs : List Nat) : DataPlane :=
  { dp with mem := { dp.mem with poison := gs.foldl (fun p g => setPoison p g true) dp.mem.poison } }

/-- Perform one piece. -/
def performWrite (t : Nat) (dp : DataPlane) (w : EWrite) : DataPlane :=
  if w.host then dp.hostWrite (dp.cls t) w.addr w.data w.bad
  else
    let dp := dp.tileWrite t w.addr w.data
    if w.bad then dp.poisonGranules [w.addr / 64] else dp

def performWrites (t : Nat) (dp : DataPlane) (ws : List EWrite) : DataPlane := ws.foldl (performWrite t) dp

/-- Pieces that no reader has seen yet. -/
def Running.left (r : Running) : List EWrite :=
  if r.hidden then r.writes.flatten
  else (r.writes.take r.begun).flatten.filter (fun w => !w.early) ++ (r.writes.drop r.begun).flatten

/-- Perform what is left of an instruction's writes. -/
def Running.finish (r : Running) (t : Nat) (dp : DataPlane) : DataPlane := performWrites t dp r.left

/-- What an engine instruction does: its effect on the data plane, and how it runs until ENGINE_COMPLETE (R193): see
`Running`. -/
structure EngineEffect where
  dp : DataPlane
  undef : List (Nat × Nat) := []
  remote : Nat := 0
  writes : List (List EWrite) := []
  hidden : Bool := false
  todo : List (List CopyReq) := []
  locks : List Nat := []

/-- How an engine instruction fails: the status, the ranges that it had begun to write, which a stop leaves undefined
(R91, R203), what it still writes (a load report, R139; the entries already reserved, R170), and the unit of the tile
that made the failing access when it is not the engine itself (R235). A refusal has none. -/
structure EngineFail where
  fault : EFault
  undef : List (Nat × Nat) := []
  after : DataPlane → DataPlane := id
  unit : Option Nat := none

abbrev EngineM := Except EngineFail

/-- A check at issue: its failure writes nothing. -/
def atIssue {α : Type} : Except EFault α → EngineM α
  | .ok a => .ok a
  | .error f => .error { fault := f }

/-- A check at issue of what another unit of the tile reads. -/
def atUnit {α : Type} (u : Nat) : Except EFault α → EngineM α
  | .ok a => .ok a
  | .error f => .error { fault := f, unit := some u }

/-- A condition of an issue check. -/
def require (status : Nat) (c : Bool) : EngineM Unit := if c then .ok () else .error { fault := EFault.plain status }

/-- A failure while the instruction runs: what it writes is left undefined. -/
def whileRunning {α : Type} (undef : List (Nat × Nat)) : Except EFault α → EngineM α
  | .ok a => .ok a
  | .error f => .error { fault := f, undef := undef }

/-- How many of `n` chunks an engine has begun at a moment that the spec does not fix: a free value from `lo` to `n`. -/
def freeCount (k lo n : Nat) : Nat := lo + (Config.freeWord k).toNat % (n - lo + 1)

/-- The first `n` chunks of an instruction have begun: a reader may already see their pieces (R252). -/
def Running.reach (r : Running) (t n : Nat) (dp : DataPlane) : DataPlane × Running :=
  (performWrites t dp (((r.writes.take n).drop r.begun).flatten.filter EWrite.early), { r with begun := max r.begun n })

/-- An instruction begins: its pieces are numbered, and a reader may already see those of the chunks begun (R252), or sees
undefined data (R90). A copy that waits for a response has begun every chunk up to it. -/
def startRun (t : Nat) (h : QEntry) (eff : EngineEffect) : DataPlane × Running :=
  let ws := numberChunks eff.dp.free eff.writes
  let used := eff.dp.free + ws.flatten.length
  let begun := if 2 ≤ ws.length && eff.remote = 0 && eff.todo.isEmpty then freeCount used 0 ws.length else ws.length
  let r : Running := ⟨h, eff.undef, eff.remote, ws, eff.hidden, 0, eff.todo, eff.locks⟩
  let dp := { eff.dp with free := used + 1 }
  if eff.hidden then (dp.undefine t (ws.flatten.map (fun w => (w.addr, w.data.length))), r)
  else r.reach t begun dp

/-- Run the granted head of engine `e` of tile `t` when it satisfies `want` (R193, R247): the engine is idle, the
tile is running, and the head holds its tokens. A failing instruction stops the tile (R203). -/
def runEngine (env : Env) (dp : DataPlane) (t e sub : Nat) (want : QEntry → Bool)
    (f : DataPlane → QEntry → EngineM EngineEffect) : DataPlane :=
  let x := dp.tile t
  let en := x.engine e
  match en.queue with
  | [] => dp
  | h :: r =>
    if x.phase = .running && en.run.isNone && h.granted && want h && dp.enabled t then
      let dp1 := dp.setTile t (x.setEngine e { en with queue := r })
      match f dp1 h with
      | .ok eff =>
        let (dp2, run) := startRun t h eff
        let y := dp2.tile t
        dp2.setTile t (settleTokens env.plumb (y.setEngine e { y.engine e with run := some run }))
      | .error ft => engineFail env (ft.after (dp1.undefine t ft.undef)) t e (ft.unit.getD sub) h ft.fault
    else dp

/-- All cores of a tile restart their watchdogs (R206). -/
def Tile.kickDogs (plumb : Nat) (x : Tile) : Tile :=
  { x with cores := x.cores.map (fun c => (c.1, { c.2 with wdStart := max c.2.wdStart plumb })) }

/-- An in-band interrupt with its mandatory byte (R452). -/
def Mgmt.raiseIbi (m : Mgmt) (code : Nat) : Mgmt :=
  if m.bus.i3cOn then { m with bus := { m.bus with ibi := m.bus.ibi ++ [code] } } else m

def State.setPins (s : State) (p : Pins) : State := { s with mg := { s.mg with pins := p } }
def State.boot (s : State) : Boot := s.mg.boot
def State.setBoot (s : State) (b : Boot) : State := { s with mg := { s.mg with boot := b } }

/-- A change of BOOT_STATUS.STATE raises an in-band interrupt (R452). -/
def State.enter (s : State) (st : BootSt) : State :=
  let m := if s.boot.st = st then s.mg else s.mg.raiseIbi 2
  { s with mg := { m with boot := { m.boot with st := st } } }

end Sys2Proof.Machine
end

