-- ==== Sys2Proof/Machine/Operands.lean ====
section
/-! DEFINITION. Operand forms: descriptors and their checks at ISSUE (R186 to R192), format words (R42, R43), the
elements of every storage format (R44 to R57), block scales (R58 to R63), and byte sets with their overlap (R500). -/

namespace Sys2Proof.Machine

/-! ### Fields -/

/-- A little-endian field of a descriptor or memory structure. -/
def fld (d : List Byte) (off n : Nat) : Nat := leNat ((d.drop off).take n)

/-- A reserved field reads 0. -/
def zeros (d : List Byte) (off n : Nat) : Bool := ((d.drop off).take n).all (fun b => b = 0)

/-- A tensor slot (R187) or KV reference (R188), by its fields. -/
structure Slot where
  addr : Nat
  pitch : Nat
  fmtw : Nat
  kind : Nat
  region : Nat
  layer : Nat
  head : Nat
  part : Nat
  t0 : Nat
deriving DecidableEq, Repr

def slotAt (d : List Byte) (off : Nat) : Slot :=
  { addr := fld d off 8, pitch := fld d (off + 8) 4, fmtw := fld d (off + 12) 2, kind := fld d (off + 14) 1,
    region := fld d off 4, layer := fld d (off + 4) 2, head := fld d (off + 6) 1, part := fld d (off + 7) 1,
    t0 := fld d (off + 8) 4 }

/-- An unused slot is all zero (R187). -/
def slotNone (d : List Byte) (off : Nat) : Bool := zeros d off 16

/-- A well-formed slot of KIND 1 (R186, R187). -/
def slotAddr (d : List Byte) (off : Nat) : Bool :=
  fld d (off + 14) 1 = 1 && fld d (off + 15) 1 = 0 && fld d off 8 < 2 ^ 48

/-- A well-formed KV reference (R186, R188). -/
def slotKv (d : List Byte) (off : Nat) : Bool :=
  fld d (off + 14) 1 = 2 && zeros d (off + 12) 2 && zeros d (off + 15) 1 && fld d (off + 7) 1 ≤ 1 &&
  fld d (off + 8) 4 % 128 = 0

/-- A scale slot: unused, or an address slot whose FMTW is 0 (R187). -/
def scaleSlot (d : List Byte) (off : Nat) : Bool :=
  slotNone d off || (slotAddr d off && fld d (off + 12) 2 = 0)

/-- An optional address slot. -/
def optSlot (d : List Byte) (off : Nat) : Bool := slotNone d off || slotAddr d off

/-! ### Format words -/

def fFmt (w : Nat) : Nat := bits w 3 0
def fSform (w : Nat) : Nat := bits w 5 4
def fBsize (w : Nat) : Nat := bits w 7 6
def fShare (w : Nat) : Nat := bits w 9 8
def fExpand (w : Nat) : Nat := bits w 11 10

/-- A format word without a reserved code or bit (R43). -/
def fmtWordOk (w : Nat) : Bool :=
  w < 4096 && fFmt w ≤ 10 && fSform w ≠ 3 && fShare w ≤ 1 && fExpand w ≤ 1 &&
  (fSform w = 0 || !([0, 1, 2, 10].contains (fFmt w)))

/-- Compute formats (R66): 0 FP4, 1 INT4, 2 FP8, 3 INT8, 4 BF16, 5 FP16; 6 for every other format. -/
def computeFmt (w : Nat) : Nat :=
  match fFmt w with
  | 1 => 4
  | 2 => 5
  | 3 => 2
  | 4 => 2
  | 5 => 3
  | 6 => 0
  | 7 => 1
  | 8 => fExpand w
  | 9 => fExpand w
  | _ => 6

/-- Bytes of a K-vector of `n` elements (R52, R53). -/
def vecBytes (fmt n : Nat) : Nat :=
  match fmt with
  | 0 => 4 * n
  | 1 => 2 * n
  | 2 => 2 * n
  | 3 => n
  | 4 => n
  | 5 => n
  | 6 => ceilDiv n 2
  | 7 => ceilDiv n 2
  | 8 => ceilDiv n 5
  | 9 => ceilDiv n 4
  | _ => 4 * n

/-- A little-endian word through a reader of bytes. -/
def rdNat (rd : Nat → Byte) (a n : Nat) : Nat := leNat ((List.range n).map (fun i => rd (a + i)))

/-- The code of element `i` of the K-vector at `a` (R52). A ternary code is the digit plus 1, and 3 when its byte is
invalid (R54, R57). -/
def elemCode (rd : Nat → Byte) (fmt a i : Nat) : Nat :=
  match fmt with
  | 0 => rdNat rd (a + 4 * i) 4
  | 1 => rdNat rd (a + 2 * i) 2
  | 2 => rdNat rd (a + 2 * i) 2
  | 3 => (rd (a + i)).toNat
  | 4 => (rd (a + i)).toNat
  | 5 => (rd (a + i)).toNat
  | 6 => (rd (a + i / 2)).toNat / 16 ^ (i % 2) % 16
  | 7 => (rd (a + i / 2)).toNat / 16 ^ (i % 2) % 16
  | 8 =>
    let b := (rd (a + i / 5)).toNat
    if 242 < b then 3 else b / 3 ^ (i % 5) % 3
  | 9 => (rd (a + i / 4)).toNat / 4 ^ (i % 4) % 4
  | _ => rdNat rd (a + 4 * i) 4

/-- The value of a code (R44, R47, R49 to R51, R55, R57). -/
def codeVal (fmt c : Nat) : FVal :=
  match fmt with
  | 0 => decodeF layFP32 c
  | 1 => decodeF layBF16 c
  | 2 => decodeF layFP16 c
  | 3 => decodeF layE4M3 c
  | 4 => decodeF layE5M2 c
  | 5 => FVal.ofInt (signedOf 8 c)
  | 6 => decodeF layE2M1 c
  | 7 => FVal.ofInt (signedOf 4 c)
  | 8 => if c = 3 then .nan else FVal.ofInt ((c : Int) - 1)
  | 9 => FVal.ofInt (signedOf 2 c)
  | _ => FVal.ofInt (signedOf 32 c)

def elemVal (rd : Nat → Byte) (fmt a i : Nat) : FVal := codeVal fmt (elemCode rd fmt a i)

/-! ### Scales -/

/-- The value of a scale byte (R58); form 0 is the scale 1 (R43). -/
def scaleVal (sform b : Nat) : FVal :=
  match sform with
  | 0 => .fin false 1 1
  | 1 => if b = 255 then .nan else (FVal.fin false 1 1).scale2 ((b : Int) - 127)
  | _ => if 0x7F ≤ b then .nan else decodeF layE4M3 b

/-- K-elements of one scale (R61). -/
def kSpan (w : Nat) : Nat := if fShare w = 0 then 16 * 2 ^ fBsize w else 128

/-- Rows or columns of one scale (R61). -/
def oSpan (w : Nat) : Nat := if fShare w = 0 then 1 else ([1, 16, 32, 128].getD (fBsize w) 1)

/-- Scale entries along K (R62). -/
def kBlocks (w k : Nat) : Nat := ceilDiv k (kSpan w)

/-! ### Byte sets -/

/-- The byte ranges of `rows` rows of `len` bytes, one pitch apart (R500). -/
def rowRanges (base pitch rows len : Nat) : List (Nat × Nat) :=
  (List.range rows).map (fun r => (base + r * pitch, len))

/-- The entries of a scale tensor for a shape (R63, R500). -/
def scaleRanges (base pitch w outer k : Nat) : List (Nat × Nat) :=
  if fSform w = 0 then [] else rowRanges base pitch (ceilDiv outer (oSpan w)) (kBlocks w k)

/-- Two byte sets share a byte (R500). -/
def meets (xs ys : List (Nat × Nat)) : Bool :=
  xs.any (fun x => ys.any (fun y => x.1 < y.1 + y.2 && y.1 < x.1 + x.2))

/-- Every range lies in the backed part of a tile's own window (R20). -/
def inOwnStore (t : Nat) (rs : List (Nat × Nat)) : Option Nat :=
  rs.findSome? (fun r =>
    if r.1 < tileBase t then some r.1
    else if tileBase t + tileBacked < r.1 + r.2 then some (max r.1 (tileBase t + tileBacked)) else none)

/-- The own-store check of results: UNMAPPED outside the backed window, PRIVATE in the core-private window (R20, R183,
R211). -/
def ownStoreCheck (t : Nat) (k : AccessKind) (rs : List (Nat × Nat)) : Except EFault Unit :=
  match inOwnStore t rs with
  | none => .ok ()
  | some a => .error (EFault.access_ (if windowOf a = .priv then reasonPrivate else reasonUnmapped) k a)

/-! ### Descriptor checks at ISSUE (R186) -/

/-- Size of the descriptor of an operation on a stream (R186); none for an OP the stream does not have. -/
def descSize (stream op : Nat) : Option Nat :=
  if stream = 0 then (if 1 ≤ op && op ≤ 7 then some 32 else none)
  else if stream = 1 then (if op = 1 then some 160 else none)
  else if stream = 2 then (if op = 1 || op = 4 then some 64 else if op = 2 || op = 3 then some 16 else none)
  else if stream ≤ 6 then (if op = 1 then some 128 else if 2 ≤ op && op ≤ 4 then some 32 else none)
  else if stream = 7 then (if op = 1 then some 64 else none)
  else none

/-- MATMUL (R189): A and B are named, scale slots stand beside scaled address operands. -/
def matmulDescOk (d : List Byte) : Bool :=
  zeros d 0x0A 2 && zeros d 0x74 12 && fld d 0x08 2 < 16 && bits (fld d 0x08 2) 3 2 ≠ 3 &&
  slotAddr d 0x10 && (slotAddr d 0x20 || slotKv d 0x20) && scaleSlot d 0x30 && scaleSlot d 0x40 &&
  optSlot d 0x80 && optSlot d 0x90 &&
  (fSform (fld d 0x1C 2) = 0 || fld d 0x3E 1 = 1) &&
  (fld d 0x2E 1 = 2 || fSform (fld d 0x2C 2) = 0 || fld d 0x4E 1 = 1)

/-- CONVERT (R190). -/
def convertDescOk (d : List Byte) : Bool :=
  fld d 4 1 ≤ 2 && fld d 5 1 ≤ 1 && fld d 6 1 ≤ 63 && fld d 7 1 = 0 && slotAddr d 0x10 && slotAddr d 0x20 &&
  scaleSlot d 0x30 && (fSform (fld d 0x2C 2) = 0 || fld d 0x3E 1 = 1)

/-- KV_PUT (R190): MODE, POLICY and DS are 0. -/
def kvPutDescOk (d : List Byte) : Bool :=
  fld d 4 2 = 0 && fld d 7 1 = 0 && slotAddr d 0x10 && slotAddr d 0x20 && slotNone d 0x30

/-- FLUSH and ADAPT (R186, R192); a fabric global record needs SYSTEM scope. -/
def flushDescOk (d : List Byte) : Bool := fld d 0 1 ≤ 63 && ((fld d 1 1 = 2 && !bit (fld d 8 8) 63) || fld d 1 1 = 3) && zeros d 2 6
def adaptDescOk (d : List Byte) : Bool := fld d 1 1 ≤ 1 && zeros d 2 6

/-- TBLLOAD, KV_POS and the region operations (R192). -/
def tblloadDescOk (d : List Byte) : Bool := fld d 0 1 ≤ 1 && zeros d 1 7 && zeros d 24 8
def kvPosDescOk (d : List Byte) : Bool := zeros d 8 8 && zeros d 20 4
def regionDescOk (d : List Byte) : Bool := zeros d 24 8

/-- How a VOP uses a source slot (R501): not at all, always, or optionally; the formats it takes; whether a row holds
one element; and whether one row serves every row. -/
structure SrcUse where
  need : Nat
  fmts : List Nat
  single : Bool
  shared : Bool
deriving DecidableEq, Repr

def srcOff : SrcUse := ⟨0, [], false, false⟩
/-- Operand formats of FP arithmetic (R501). -/
def fpIn : List Nat := [0, 1, 2, 5]
def fpOut : List Nat := [0, 1, 2]
def srcFp : SrcUse := ⟨1, fpIn, false, false⟩
def srcInt : SrcUse := ⟨1, [10], false, false⟩
def srcVec (need : Nat) (fmts : List Nat) : SrcUse := ⟨need, fmts, false, true⟩

/-- The operands of a VOP (R501): sources, destination formats, whether a destination row is one element, and the
bytes of a STAT row, 0 when STAT is not used. -/
structure VSig where
  s0 : SrcUse
  s1 : SrcUse
  s2 : SrcUse
  dst : List Nat
  dstSingle : Bool
  stat : Nat
deriving DecidableEq, Repr

/-- Signature of an operation code with its FN and FLAGS; none for a reserved code (R191, R501). -/
def vopSig (v fn fl : Nat) : Option VSig :=
  let stats := bit fl 3
  if v ≤ 2 || v = 4 || v = 5 || v = 8 then some ⟨srcFp, srcFp, srcOff, fpOut, false, 0⟩
  else if v = 3 then some ⟨srcFp, srcFp, srcFp, fpOut, false, 0⟩
  else if v = 6 || v = 7 then some ⟨srcFp, srcOff, srcOff, fpOut, false, 0⟩
  else if 0x10 ≤ v && v ≤ 0x14 then some ⟨srcFp, srcFp, srcOff, [10], false, 0⟩
  else if v = 0x15 then some ⟨⟨1, [0, 1, 2, 5, 10], false, false⟩, srcFp, srcFp, fpOut, false, 0⟩
  else if v = 0x18 then some ⟨⟨1, fpOut, false, false⟩, srcOff, srcOff, [10], false, 0⟩
  else if 0x20 ≤ v && v ≤ 0x2A then some ⟨srcInt, srcInt, srcOff, [10], false, 0⟩
  else if v = 0x30 then some ⟨srcFp, srcOff, srcOff, fpOut, false, 0⟩
  else if v = 0x31 then some ⟨⟨1, fpOut, false, false⟩, srcOff, srcOff, [10], false, 0⟩
  else if v = 0x32 then some ⟨srcInt, srcOff, srcOff, [0], false, 0⟩
  else if 0x38 ≤ v && v ≤ 0x3B then some ⟨srcFp, srcOff, srcOff, fpOut, true, 0⟩
  else if v = 0x3C then
    some ⟨if fn = 255 then srcOff else srcFp, ⟨1, fpIn, true, false⟩, srcOff, fpOut, false, 0⟩
  else if v = 0x40 then
    some ⟨srcFp, if bits fl 5 4 = 2 then srcVec 1 [0, 1] else srcOff, srcOff, fpOut, false, 0⟩
  else if v = 0x48 then some ⟨srcFp, srcOff, srcOff, fpOut, false, 0⟩
  else if v = 0x49 then some ⟨srcFp, srcOff, srcOff, fpOut, false, 12⟩
  else if v = 0x4A then some ⟨srcFp, srcOff, srcOff, fpOut, false, 8⟩
  else if v = 0x50 then some ⟨srcFp, srcVec 2 fpIn, srcVec 2 fpIn, fpOut, false, if stats then 8 else 0⟩
  else if v = 0x51 then some ⟨srcFp, srcVec 2 fpIn, srcOff, fpOut, false, if stats then 4 else 0⟩
  else none

/-- A source slot is named exactly when the operation uses it (R501). -/
def srcSlotOk (u : SrcUse) (d : List Byte) (off : Nat) : Bool :=
  if u.need = 0 then slotNone d off else if u.need = 1 then slotAddr d off else optSlot d off

/-- VOP (R186, R191, R501). -/
def vopDescOk (d : List Byte) : Bool :=
  let fl := fld d 2 2
  fl < 64 && bits fl 5 4 ≠ 3 && zeros d 0x70 16 &&
  (fld d 0 1 ≠ 0x3C || [0, 1, 2, 4, 5, 8, 255].contains (fld d 1 1)) &&
  (match vopSig (fld d 0 1) (fld d 1 1) fl with
   | none => false
   | some g =>
     slotAddr d 0x20 && srcSlotOk g.s0 d 0x30 && srcSlotOk g.s1 d 0x40 && srcSlotOk g.s2 d 0x50 &&
     (if g.stat = 0 then slotNone d 0x60 else slotAddr d 0x60))

/-- COPY (R229, R230 check 1); with FILL set, SSPACE is ignored. -/
def copyDescOk (d : List Byte) : Bool :=
  let fl := fld d 0x22 2
  fl < 64 && zeros d 0x24 4 && zeros d 0x3C 4 && bits fl 3 2 ≤ 1 &&
  (bit fl 4 || (bits fl 1 0 ≤ 1 && !(bits fl 1 0 = 1 && bits fl 3 2 = 1)))

/-- The descriptor check of R186 for an operation on a stream. -/
def descOk (stream op : Nat) (d : List Byte) : Bool :=
  if stream = 0 then regionDescOk d
  else if stream = 1 then matmulDescOk d
  else if stream = 2 then
    (if op = 1 then convertDescOk d else if op = 2 then flushDescOk d else if op = 3 then adaptDescOk d
     else kvPutDescOk d)
  else if stream ≤ 6 then
    (if op = 1 then vopDescOk d else if op = 2 then tblloadDescOk d else if op = 3 then true else kvPosDescOk d)
  else copyDescOk d

end Sys2Proof.Machine
end

