-- ==== Sys2Proof/Machine/Dma.lean ====
section
/-! DEFINITION. The DMA engines: COPY with its checks and chunks (R229 to R231), at most 16 requests at once (R232), poison
(R221, R222), host memory and remote modules (R212, R234), and the failures of R232 and R234. -/

namespace Sys2Proof.Machine

/-- The descriptor of R229. -/
structure CopyDesc where
  src : Nat
  dst : Nat
  len : Nat
  rows : Nat
  spitch : Nat
  dpitch : Nat
  planes : Nat
  shost : Bool
  dhost : Bool
  fill : Bool
  splane : Nat
  dplane : Nat
  pattern : List Byte
deriving DecidableEq, Repr

/-- With FILL set, SSPACE is ignored. -/
def copyDesc (d : List Byte) : CopyDesc :=
  { src := fld d 0 8, dst := fld d 8 8, len := fld d 0x10 4, rows := fld d 0x14 4, spitch := fld d 0x18 4,
    dpitch := fld d 0x1C 4, planes := fld d 0x20 2, shost := bit (fld d 0x22 2) 0 && !bit (fld d 0x22 2) 4,
    dhost := bit (fld d 0x22 2) 2, fill := bit (fld d 0x22 2) 4, splane := fld d 0x28 8, dplane := fld d 0x30 8,
    pattern := (d.drop 0x38).take 4 }

/-- Source and destination of every row, planes outermost (R229). -/
def CopyDesc.rowList (x : CopyDesc) : List (Nat × Nat) :=
  (List.range x.planes).flatMap (fun p => (List.range x.rows).map (fun r =>
    (x.src + p * x.splane + r * x.spitch, x.dst + p * x.dplane + r * x.dpitch)))

/-- Ranges pairwise disjoint. -/
def apart : List (Nat × Nat) → Bool
  | [] => true
  | r :: rs => !meets [r] rs && apart rs

/-- Device-local part of a list of ranges (R212, R230). -/
def localRanges (c : FabCfg) (host : Bool) (rs : List (Nat × Nat)) : List (Nat × Nat) :=
  if host then [] else rs.filterMap (fun r => match resolve c r.1 with
    | .dev a => some (a, r.2)
    | _ => none)

def CopyDesc.dstRanges (x : CopyDesc) : List (Nat × Nat) := x.rowList.map (fun r => (r.2, x.len))
def CopyDesc.srcRanges (x : CopyDesc) : List (Nat × Nat) := if x.fill then [] else x.rowList.map (fun r => (r.1, x.len))

/-! ### Chunks and requests -/

/-- Cut `[0, len)` of a row at the destination's multiples of 4 KiB. `fuel` bounds the pieces. -/
def cutRow (dst len : Nat) : Nat → Nat → List (Nat × Nat)
  | 0, _ => []
  | fuel + 1, off =>
    if len ≤ off then []
    else
      let n := min (len - off) (4096 - (dst + off) % 4096)
      (off, n) :: cutRow dst len fuel (off + n)

/-- Cut a chunk into requests of at most 256 bytes that cross no 4 KiB page at their destination nor, unless the copy
fills, at their source (R231). -/
def cutChunk (fill : Bool) (src dst : Nat) (start len : Nat) : Nat → Nat → List CopyReq
  | 0, _ => []
  | fuel + 1, off =>
    if len ≤ off then []
    else
      let room := min (256 - (dst + off) % 256) (if fill then 256 else 4096 - (src + off) % 4096)
      let n := min (len - off) room
      ⟨src + off, dst + off, n, start + off⟩ :: cutChunk fill src dst start len fuel (off + n)

/-- The 4 KiB chunks of a row, each as its requests, ascending (R231). -/
def rowChunks (fill : Bool) (len : Nat) (r : Nat × Nat) : List (List CopyReq) :=
  (cutRow r.2 len (len / 4096 + 2) 0).map (fun c =>
    cutChunk fill (r.1 + c.1) (r.2 + c.1) c.1 c.2 (c.2 / 256 + 4) 0)

def CopyDesc.chunks (x : CopyDesc) : List (List CopyReq) := x.rowList.flatMap (rowChunks x.fill x.len)

/-- Bytes of a fill at an offset within its row (R229). -/
def fillBytes (pattern : List Byte) (off n : Nat) : List Byte :=
  (List.range n).map (fun i => pattern.getD ((off + i) % 4) 0)

/-- A destination granule takes some byte of a source granule for which `bad` holds, when `n` bytes go from `src` to `dst`
(R221). -/
def carried (bad : Nat → Bool) (src dst n g : Nat) : Bool :=
  (List.range n).any (fun i => (dst + i) / 64 = g && bad ((src + i) / 64))

/-- What a request reads: bytes with the source granules that are poisoned, or a remote source. -/
inductive CopySrc where
  | bytes (bs : List Byte) (src : Nat) (bad : Nat → Bool)
  | remote (home a : Nat)

/-- Read one request's source with its check (R212, R221, R234, R238). -/
def copyFetch (env : Env) (cls t : Nat) (x : CopyDesc) (dp : DataPlane) (r : CopyReq) : Except EFault CopySrc :=
  if x.fill then .ok (.bytes (fillBytes x.pattern r.off r.n) 0 (fun _ => false))
  else if x.shost then
    if hostReach dp cls r.src r.n then .ok (.bytes (readBytes dp.mem.host r.src r.n) 0 (fun _ => false))
    else .error (EFault.plain stHostDmaError)
  else match resolve env.cfg r.src with
    | .bad => .error (EFault.access_ reasonUnmapped .read r.src)
    | .remote h a => .ok (.remote h a)
    | .dev a => do
      checkIssued dp cls (some t) .read r.src a r.n
      pure (.bytes (readBytes dp.mem.dev a r.n) a (SMap.get false dp.mem.poison))

/-- The writes of one request's bytes, carrying poison, or the request that carries them to another module (R212, R221,
R222); answers how many responses are then awaited. -/
def copyStore (env : Env) (cls t e : Nat) (host : Bool) (dp : DataPlane) (dst : Nat) (bs : List Byte) (src : Nat)
    (bad : Nat → Bool) : Except EFault (DataPlane × List EWrite × Nat) :=
  if host then
    let lost := (granules src bs.length).any bad
    let bs' := if lost then freshBytes dp.free bs.length else bs
    let dp := { dp with free := dp.free + b2n lost * bs.length }
    .ok (dp.addUsage cls (fun u => { u with hostDma := u.hostDma + bs.length }), granuleWrites true dst bs' (fun _ => lost), 0)
  else match resolve env.cfg dst with
    | .bad => .error (EFault.access_ reasonUnmapped .write dst)
    | .remote h a =>
      let lost := (granules a bs.length).filter (carried bad src a bs.length)
      .ok (dp.sendRemote h .write (.dma t e dst host) (a :: lost) bs (!lost.isEmpty), [], 1)
    | .dev a => do
      checkIssued dp cls (some t) .write dst a bs.length
      pure (dp, granuleWrites false a bs (carried bad src a bs.length), 0)

/-- One request (R231): its local writes, and how many responses are then awaited. -/
def copyRequest (env : Env) (cls t e : Nat) (x : CopyDesc) (dp : DataPlane) (r : CopyReq) :
    Except EFault (DataPlane × List EWrite × Nat) := do
  match ← copyFetch env cls t x dp r with
  | .remote h a => pure (dp.sendRemote h .read (.dma t e r.dst x.dhost) [a, r.n] [], [], 1)
  | .bytes bs src bad => do
    let (dp, ws, n) ← copyStore env cls t e x.dhost dp r.dst bs src bad
    pure (dp.addUsage cls (fun u => { u with
      hbmRd := u.hbmRd + (if x.fill || x.shost then 0 else hbmBytes src r.n)
      hostDma := u.hostDma + (if x.shost then r.n else 0) }), ws, n)

/-- Where issuing stops: the data plane, the local writes, the responses awaited, the requests not issued, and the failure
of the first of them. A request fails only once nothing before it is outstanding. -/
structure Issued where
  dp : DataPlane
  writes : List EWrite
  out : Nat
  rest : List CopyReq
  fault : Option EFault

/-- Issue the requests of one chunk, at most 16 at once (R232). -/
def issueChunk (env : Env) (cls t e : Nat) (x : CopyDesc) : List CopyReq → DataPlane → Nat → Issued
  | [], dp, out => ⟨dp, [], out, [], none⟩
  | r :: rs, dp, out =>
    if 16 ≤ out then ⟨dp, [], out, r :: rs, none⟩
    else match copyRequest env cls t e x dp r with
      | .error f => ⟨dp, [], out, r :: rs, if out = 0 then some f else none⟩
      | .ok (dp, ws, n) =>
        let i := issueChunk env cls t e x rs dp (out + n)
        { i with writes := ws ++ i.writes }

/-- Where a copy stands: the data plane, the local writes of the chunks issued so far, the responses awaited, the chunks
still to issue, and the failure met by the last of the writes' chunks. -/
structure Moved where
  dp : DataPlane
  chunks : List (List EWrite)
  out : Nat
  todo : List (List CopyReq)
  fault : Option EFault

/-- Issue chunks in order. The next chunk begins once every response of the one before has come (R231, R233). -/
def issueChunks (env : Env) (cls t e : Nat) (x : CopyDesc) :
    List (List CopyReq) → DataPlane → Nat → List (List EWrite) → Moved
  | [], dp, out, acc => ⟨dp, acc, out, [], none⟩
  | c :: cs, dp, out, acc =>
    let i := issueChunk env cls t e x c dp out
    if i.fault.isNone && i.rest.isEmpty && i.out = 0 then issueChunks env cls t e x cs i.dp 0 (acc ++ [i.writes])
    else ⟨i.dp, acc ++ [i.writes], i.out, i.rest :: cs, i.fault⟩

/-- What a failing copy leaves: chunks before the failing one stay written, and the failing one is written in part, each
granule wholly or not at all (R231, R252). -/
def copyLeaves (t : Nat) (before : List EWrite) (failing : List EWrite) (dp : DataPlane) : DataPlane :=
  let ws := numberWrites dp.free failing
  performWrites t { dp with free := dp.free + ws.length } (before ++ ws.filter EWrite.early)

/-- AER records a host read that the IOMMU refuses, which the host answers as an unsupported request (R234). -/
def DataPlane.refusedRead (dp : DataPlane) (t : Nat) (f : EFault) : DataPlane :=
  if f.status = stHostDmaError then dp.recordAer (dp.cls t) .unsupported else dp

/-- The checks of R230. -/
def copyChecks (env : Env) (d : List Byte) : EngineM CopyDesc := do
  let x := copyDesc d
  require stDescInvalid (copyDescOk d)
  require stShapeInvalid (1 ≤ x.len && x.len ≤ 16777216 && 1 ≤ x.rows && x.rows ≤ 65536 && 1 ≤ x.planes &&
    x.planes ≤ 4096)
  require stOperandOverlap (apart x.dstRanges &&
    !meets (localRanges env.cfg x.shost x.srcRanges) (localRanges env.cfg x.dhost x.dstRanges))
  pure x

/-- COPY (R229 to R231). -/
def copy (env : Env) (t e : Nat) (dp : DataPlane) (q : QEntry) : EngineM EngineEffect := do
  let x ← copyChecks env q.desc
  let m := issueChunks env (dp.cls t) t e x x.chunks dp 0 []
  match m.fault with
  | none => pure { dp := m.dp, remote := m.out, writes := m.chunks, todo := m.todo }
  | some f =>
    .error { fault := f, after := fun _ =>
      copyLeaves t m.chunks.dropLast.flatten (m.chunks.getLastD []) (m.dp.refusedRead t f) }

/-- Run a COPY on DMA engine `e` of tile `t`. -/
def runDma (env : Env) (dp : DataPlane) (t e : Nat) (want : QEntry → Bool)
    (f : DataPlane → QEntry → EngineM EngineEffect) : DataPlane :=
  if e < 2 then runEngine env dp t (7 + e) (4 + e) want f else dp

/-- COPY. -/
def execCopy (t e : Nat) (s : State) : Out :=
  s.work (fun env dp => runDma env dp t e (fun q => q.op = 1) (copy env t e))

/-! ### A running copy -/

/-- Change the instruction that an engine of a tile runs. -/
def DataPlane.modRun (dp : DataPlane) (t e : Nat) (f : Running → Running) : DataPlane :=
  let x := dp.tile t
  dp.setTile t (x.setEngine e { x.engine e with run := (x.engine e).run.map f })

/-- A running copy fails in chunk `n` of its local writes: what no reader has seen of it is written as `copyLeaves` says. -/
def copyStops (env : Env) (dp : DataPlane) (t e n : Nat) (r : Running) (f : EFault) : DataPlane :=
  let unseen := fun (i : Nat) => (r.writes.getD i []).filter (fun w => !(w.early && i < r.begun))
  let dp := copyLeaves t ((List.range (min n r.writes.length)).flatMap unseen) (if n < r.begun then [] else unseen n) dp
  let dp := dp.modRun t (7 + e) (fun r => { r with writes := [], todo := [] })
  engineFail env dp t (7 + e) (4 + e) r.entry f

/-- Issue what a running copy may issue now (R231, R232): after an abort, the rest of its current chunk (R233). -/
def dmaPump (env : Env) (dp : DataPlane) (t e : Nat) : DataPlane :=
  let en := (dp.tile t).engine (7 + e)
  match en.run with
  | none => dp
  | some r =>
    if r.entry.op ≠ 1 then dp
    else
      let m := issueChunks env (dp.cls t) t e (copyDesc r.entry.desc) r.todo dp r.remote []
      let ws := numberChunks m.dp.free m.chunks
      let n := if m.out = 0 && m.todo.isEmpty then r.begun else r.writes.length + ws.length
      let (dp, r') := { r with remote := m.out, writes := r.writes ++ ws, todo := m.todo }.reach t n
        { m.dp with free := m.dp.free + ws.flatten.length }
      let dp := dp.modRun t (7 + e) (fun _ => r')
      match m.fault with
      | none => dp
      | some f => copyStops env (dp.refusedRead t f) t e (r'.writes.length - 1) r' f

/-- A tile's DMA engine runs a COPY that reads. -/
def copyReads (r : Running) : Bool := r.entry.op = 1 && !(copyDesc r.entry.desc).fill

/-- The reads of a DMA engine that are outstanding are given up. -/
def DataPlane.dropReads (dp : DataPlane) (t e : Nat) : DataPlane :=
  let mine := fun (r : RemoteOut) => r.kind = .read && (match r.owner with
    | .dma n k _ _ => n = t && k = e
    | _ => false)
  let gone := (dp.remoteOut.filter mine).length
  { dp with remoteOut := dp.remoteOut.filter (fun r => !mine r) }.modRun t (7 + e) (fun r => { r with remote := r.remote - gone })

/-- Fail a running copy at a chunk not before the last that it has begun; one that an abort has reached waits for its reads
no longer. -/
def copyReadFails (env : Env) (dp : DataPlane) (t e chunk status : Nat) (want : Running → Bool) : DataPlane :=
  match ((dp.tile t).engine (7 + e)).run with
  | some r =>
    if e < 2 && copyReads r && want r then
      let dp := dp.dropReads t e
      if (dp.tile t).phase = .running then copyStops env dp t e (max chunk (r.begun - 1)) r (EFault.plain status)
      else dp.modRun t (7 + e) (fun r => { r with todo := [] })
    else dp
  | none => dp

/-- DMA_TIMEOUT: a read of the copy gets no response in time (R232). -/
def execDmaTimeout (t e chunk : Nat) (s : State) : Out :=
  s.work (fun env dp => copyReadFails env dp t e chunk stDmaTimeout (fun _ => true))

/-- HOST_DMA_ERROR: a host read returns a completer abort, an unsupported request or a poisoned completion, and AER of the
partition's function records the error (R234). -/
def execHostDmaError (t e : Nat) (x : HostError) (s : State) : Out :=
  s.work (fun env dp =>
    let hit := fun (r : Running) => (copyDesc r.entry.desc).shost
    match ((dp.tile t).engine (7 + e)).run with
    | some r =>
      if e < 2 && copyReads r && hit r then
        copyReadFails env (dp.recordAer (dp.cls t) x.kind) t e x.chunk stHostDmaError hit
      else dp
    | none => dp)

end Sys2Proof.Machine
end

