-- ==== Sys2Proof/Machine/KvTable.lean ====
section
/-! DEFINITION. The memory structures of the KV cache as engines read them: format descriptors (R153 to R155), region
entries and handles (R158), page tables and translation (R160, R161), and the Stencil table with its check (R166 to
R169) and its visibility rules (R173). -/

namespace Sys2Proof.Machine

def kvInvalid {α : Type} : Except EFault α := .error (EFault.plain stKvRegionInvalid)

/-! ### Format descriptors -/

/-- A format descriptor (R154). -/
structure FmtDesc where
  addr : Nat
  kvfmt : Nat
  h : Nat
  dh : Nat
  layers : Nat
deriving DecidableEq, Repr

/-- Fields within range and reserved bytes 0 (R154). -/
def fmtDescOk (a : Nat) (b : List Byte) : Bool :=
  a % 16 = 0 && fld b 0 1 ≤ 2 && 1 ≤ fld b 1 1 && fld b 1 1 ≤ 64 && fld b 2 2 % 16 = 0 && 16 ≤ fld b 2 2 &&
  fld b 2 2 ≤ 512 && 1 ≤ fld b 4 2 && fld b 4 2 ≤ 256 && zeros b 6 10

/-- Read a format descriptor; an unreadable or invalid one is KV_REGION_INVALID (R74, R158). -/
def readFmtDesc (dp : DataPlane) (cls : Nat) (own : Option Nat) (a : Nat) : Except EFault FmtDesc :=
  match accessCheck dp cls own .read a 16 with
  | some _ => kvInvalid
  | none => do
    let b ← checkedRead dp cls own a 16
    if fmtDescOk a b then pure ⟨a, fld b 0 1, fld b 1 1, fld b 2 2, fld b 4 2⟩ else kvInvalid

/-- Bytes of a K and a V element (R153). -/
def FmtDesc.e (f : FmtDesc) : Nat := if f.kvfmt = 0 then 2 else 1
def FmtDesc.pk (f : FmtDesc) : Nat := f.dh * f.e
def FmtDesc.sk (f : FmtDesc) : Nat := if f.kvfmt = 2 then 2048 else 0
def FmtDesc.pv (f : FmtDesc) : Nat := 128 * f.e
/-- Bytes of one head within a page (R155). -/
def FmtDesc.hs (f : FmtDesc) : Nat := 128 * f.pk + f.sk + f.dh * f.pv
/-- Bytes of a page in use (R155). -/
def FmtDesc.used (f : FmtDesc) : Nat := f.h * f.hs
/-- Offsets within a page of R155. -/
def FmtDesc.kOff (f : FmtDesc) (h t : Nat) : Nat := h * f.hs + t * f.pk
def FmtDesc.ksOff (f : FmtDesc) (h t : Nat) : Nat := h * f.hs + 128 * f.pk + 16 * t
def FmtDesc.vOff (f : FmtDesc) (h d : Nat) : Nat := h * f.hs + 128 * f.pk + f.sk + d * f.pv
/-- Addresses of the layer scale bytes (R154). -/
def FmtDesc.ksAddr (f : FmtDesc) (l : Nat) : Nat := f.addr + 16 + l
def FmtDesc.vsAddr (f : FmtDesc) (l : Nat) : Nat := f.addr + 16 + roundUp f.layers 16 + l
/-- Format words of K and V (R153, R42). -/
def FmtDesc.kWord (f : FmtDesc) : Nat := if f.kvfmt = 0 then 0x001 else if f.kvfmt = 1 then 0x003 else 0x0D3
def FmtDesc.vWord (f : FmtDesc) : Nat := if f.kvfmt = 0 then 0x001 else 0x003

/-! ### Regions -/

/-- A region entry's fields (R158). -/
structure RegEnt where
  state : Nat
  pool : Nat
  layers : Nat
  gen : Nat
  vbase : Nat
  maxlen : Nat
  len : Nat
  resv : Nat
  lock : Nat
  pt : Nat
  fmt : Nat
deriving DecidableEq, Repr

def regEntOf (b : List Byte) : RegEnt :=
  ⟨fld b 0 1, fld b 1 1, fld b 2 2, fld b 4 2, fld b 8 8, fld b 0x10 4, fld b 0x14 4, fld b 0x18 4, fld b 0x1C 4,
   fld b 0x20 8, fld b 0x28 8⟩

/-- A live region that resolves: its entry's address, its pool and its format. -/
structure Region where
  handle : Nat
  at_ : Nat
  ent : RegEnt
  poolId : Nat
  pool : KvPool
  fd : FmtDesc
deriving DecidableEq, Repr

def handleIdx (h : Nat) : Nat := bits h 15 0
def handleGen (h : Nat) : Nat := bits h 31 16

/-- Address of a partition's region entry (R158, R293). -/
def regEntAddr (p : Part) (idx : Nat) : Nat := p.rtab + 64 * idx

/-- A pool that a partition has registered (R156). -/
def DataPlane.poolOf (dp : DataPlane) (p id : Nat) : Option KvPool :=
  match SMap.get none dp.pools id with
  | some k => if k.part = p && id < 64 then some k else none
  | none => none

/-- The entry that a handle names, whatever its state, with its generation checked (R158). -/
def readEntry (dp : DataPlane) (p : Nat) (own : Option Nat) (h : Nat) : Except EFault RegEnt := do
  let pt := dp.part p
  if handleIdx h = 0 || pt.rtlen ≤ handleIdx h then kvInvalid
  else
    let b ← checkedRead dp p own (regEntAddr pt (handleIdx h)) 64
    if handleGen h = (regEntOf b).gen then pure (regEntOf b) else kvInvalid

/-- Resolve a handle to a live region (R158). -/
def readRegion (dp : DataPlane) (p : Nat) (own : Option Nat) (h : Nat) : Except EFault Region := do
  let e ← readEntry dp p own h
  if e.state ≠ 1 then kvInvalid
  else match dp.poolOf p e.pool with
    | none => kvInvalid
    | some k => do
      let fd ← readFmtDesc dp p own e.fmt
      pure ⟨h, regEntAddr (dp.part p) (handleIdx h), e, e.pool, k, fd⟩

/-- Blocks of each layer (R159). -/
def Region.blocks (r : Region) : Nat := ceilDiv r.ent.maxlen 128

/-- Address of a page-table entry (R159). -/
def Region.pteAddr (r : Region) (l b : Nat) : Nat := r.ent.pt + 4 * (l * r.blocks + b)

def KvPool.pageSize (k : KvPool) : Nat := 32768 * 2 ^ k.psz
def KvPool.pageAddr (k : KvPool) (page : Nat) : Nat := k.base + page * k.pageSize
def KvPool.refAddr (k : KvPool) (page : Nat) : Nat := k.refs + 2 * page

/-- Fields of a page-table entry (R160). -/
def pteV (x : Nat) : Bool := bit x 31
def pteRo (x : Nat) : Bool := bit x 30
def ptePage (x : Nat) : Nat := bits x 23 0
def pteMake (ro : Bool) (page : Nat) : Nat := 2 ^ 31 + b2n ro * 2 ^ 30 + page

/-! ### Translation -/

/-- A page-table entry as a tile's translator has it: as first read in the current command (R161). The cache holds
each entry plus one, since 0 stands for an entry that it has not read. -/
def tlbGet (dp : DataPlane) (t a : Nat) : Nat :=
  let c := SMap.get 0 (dp.tile t).tlb a
  if c = 0 then readNat dp.mem.dev a 4 else c - 1

/-- Read page-table entries that the translator has not read yet: access check, then poison (R221, R238). -/
def checkPtes (dp : DataPlane) (cls t : Nat) : List Nat → Except EFault Unit
  | [] => .ok ()
  | a :: r => do
    if SMap.get 0 (dp.tile t).tlb a = 0 then
      let _ ← checkedRead dp cls (some t) a 4
    checkPtes dp cls t r

/-- The translator has now read these entries. -/
def tlbTouch (dp : DataPlane) (t : Nat) (as_ : List Nat) : DataPlane :=
  dp.setTile t (as_.foldl (fun x a => { x with tlb := SMap.set 0 x.tlb a (tlbGet dp t a + 1) }) (dp.tile t))

/-! ### The Stencil table -/

/-- A Stencil entry (R167); `parents` lists each node's parent, 255 for the last verified token. -/
structure SEntry where
  region : Nat
  start : Nat
  new : Nat
  cand : Nat
  mode : Nat
  ctx : Nat
  parents : List Nat
deriving DecidableEq, Repr

def stencilInvalid {α : Type} : Except EFault α := .error (EFault.plain stStencilInvalid)

def SEntry.v (e : SEntry) : Nat := e.new - e.cand

/-- NEW, CAND, MODE and TREE agree (R167). -/
def entryModeOk (new cand mode tree : Nat) : Bool :=
  1 ≤ new && new ≤ 16384 && cand ≤ new - 1 &&
  ((mode = 0 && cand = 0 && tree = 0) || (mode = 1 && 1 ≤ cand && cand ≤ 16 && tree = 0) ||
   (mode = 2 && 1 ≤ cand && cand ≤ 64))

/-- Each parent is 0xFF or a lower node (R167). -/
def parentsOk (ps : List Nat) : Bool := (List.range ps.length).all (fun k => ps.getD k 255 = 255 || ps.getD k 255 < k)

/-- The parent list of an entry: a chain names each node's predecessor, a tree reads CAND bytes of its array (R167). -/
def entryParents (dp : DataPlane) (cls : Nat) (own : Option Nat) (mode cand tree : Nat) : Except EFault (List Nat) :=
  if mode = 2 then do
    let b ← checkedRead dp cls own tree cand
    pure (b.map (·.toNat))
  else pure ((List.range cand).map (fun k => if k = 0 then 255 else k - 1))

/-- One entry, checked against the end of the entry before it (R167, R169). -/
def readSEntry (dp : DataPlane) (cls : Nat) (own : Option Nat) (span : Nat) (b : List Byte) (prevEnd : Nat) :
    Except EFault SEntry := do
  let start := fld b 4 4
  let new := fld b 8 2
  let cand := fld b 10 1
  let mode := fld b 11 1
  let tree := fld b 16 8
  if !(zeros b 24 8 && prevEnd ≤ start && start + new ≤ span && entryModeOk new cand mode tree) then stencilInvalid
  else do
    let ps ← entryParents dp cls own mode cand tree
    if parentsOk ps then pure ⟨fld b 0 4, start, new, cand, mode, fld b 12 4, ps⟩ else stencilInvalid

/-- The entries in table order (R169). -/
def readSEntries (dp : DataPlane) (cls : Nat) (own : Option Nat) (span : Nat) :
    List (List Byte) → Nat → Except EFault (List SEntry)
  | [], _ => .ok []
  | b :: r, prevEnd => do
    let e ← readSEntry dp cls own span b prevEnd
    let es ← readSEntries dp cls own span r (e.start + e.new)
    pure (e :: es)

/-- Cut a byte string into `k` pieces of `n` bytes. -/
def pieces (n : Nat) : Nat → List Byte → List (List Byte)
  | 0, _ => []
  | k + 1, bs => bs.take n :: pieces n k (bs.drop n)

/-- A table that passes check 1 of R169: its SPAN and its entries. -/
structure STable where
  span : Nat
  entries : List SEntry
deriving DecidableEq, Repr

/-- Check 1 of R169. -/
def readTable (dp : DataPlane) (cls : Nat) (own : Option Nat) (a : Nat) : Except EFault STable :=
  if a % 64 ≠ 0 then stencilInvalid
  else do
    let hd ← checkedRead dp cls own a 64
    let nseq := fld hd 0 2
    let span := fld hd 4 4
    if !(1 ≤ nseq && nseq ≤ 4096 && 1 ≤ span && span ≤ 65536 && zeros hd 3 1 && zeros hd 0x12 46) then stencilInvalid
    else do
      let body ← checkedRead dp cls own (a + 64) (32 * nseq)
      let es ← readSEntries dp cls own span (pieces 32 nseq body) 0
      pure ⟨span, es⟩

/-- The row spans (START, NEW) of a table, for an instruction whose ROWSRC is STENCIL: refused unless CHECKED is 1,
read at the point of coherence (R168). -/
def checkedSpans (dp : DataPlane) (cls : Nat) (own : Option Nat) (a : Nat) : Except EFault (List (Nat × Nat)) := do
  let hd ← checkedRead dp cls own a 64
  if fld hd 2 1 ≠ 1 then stencilInvalid
  else do
    let body ← checkedRead dp cls own (a + 64) (32 * fld hd 0 2)
    pure ((pieces 32 (fld hd 0 2) body).map (fun b => (fld b 4 4, fld b 8 2)))

/-- Row `r` of the batch holds a token (R168). -/
def inSpans (ss : List (Nat × Nat)) (r : Nat) : Bool := ss.any (fun s => s.1 ≤ r && r < s.1 + s.2)

/-- The valid rows among 0 to M − 1 (R83, R168): by count, or by a Stencil table and row base. -/
def validRows (dp : DataPlane) (cls : Nat) (own : Option Nat) (stencil : Bool) (rows table rb m : Nat) :
    Except EFault (List Nat) :=
  if stencil then do
    let ss ← checkedSpans dp cls own table
    pure ((List.range m).filter (fun r => inSpans ss (rb + r)))
  else pure (List.range (min rows m))

/-- Path from the last verified token to node `k`, in ascending order, `k` included (R174). -/
def nodePath (ps : List Nat) : Nat → Nat → List Nat
  | 0, _ => []
  | f + 1, k => if k = 255 then [] else nodePath ps f (ps.getD k 255) ++ [k]

/-- Ancestors of node `k` and `k` itself. -/
def SEntry.path (e : SEntry) (k : Nat) : List Nat := nodePath e.parents 65 k

/-- New token `i` of an entry sees key slot `j` (R173). -/
def SEntry.sees (e : SEntry) (i j : Nat) : Bool :=
  if i < e.v then j ≤ e.ctx + i
  else
    j < e.ctx + e.v ||
      (e.ctx + e.v ≤ j && j < e.ctx + e.new && (e.path (i - e.v)).contains (j - (e.ctx + e.v)))

/-- Position of new token `i` (R173). -/
def SEntry.position (e : SEntry) (i : Nat) : Nat :=
  if i < e.v then e.ctx + i else e.ctx + e.v - 1 + (e.path (i - e.v)).length

end Sys2Proof.Machine
end

