-- ==== Sys2Proof/Machine/KvOps.lean ====
section
/-! DEFINITION. The KV translator's region operations (R156 to R165, R169, R170, R174, R175): page pools, creation,
fork, reservation with copy-on-write, commit, truncation, release. An operation checks its operands and takes the locks of
the regions that it changes when it starts, and makes its changes and gives the locks back when it completes or stops
(R162); a region whose LOCK is not 0 makes the operation wait. -/

namespace Sys2Proof.Machine

/-! ### Pools -/

/-- A 4-byte field of a pool descriptor in memory. -/
def poolField (dp : DataPlane) (k : KvPool) (off : Nat) : Nat := readNat dp.mem.dev (k.desc + off) 4

/-- A module write at the point of coherence by a tile's translator. -/
def DataPlane.put (dp : DataPlane) (t a n v : Nat) : DataPlane := dp.tileWrite t a (leBytes n v)

def DataPlane.setPool (dp : DataPlane) (id : Nat) (k : KvPool) : DataPlane :=
  { dp with pools := SMap.set none dp.pools id (some k) }

/-- Raise KV_POOL_LOW to the pool's partition: SOURCE 1 and the pool ID (R157, R476). -/
def poolLowEvent (env : Env) (dp : DataPlane) (id : Nat) (k : KvPool) (t : Nat) : DataPlane :=
  dp.setPart k.part (elogPut (LogFields.bytes
    ⟨evKvPoolLow, 1, 0, 0xFFFF, k.part, k.desc, env.plumb, (dp.tile t).launchIds.1, (dp.tile t).launchIds.2, id⟩)
    (dp.part k.part))

/-- Pop the top of a pool's free stack: its count becomes 1, and KV_POOL_LOW is raised once below LOWATER (R157). -/
def popPage (env : Env) (t id : Nat) (dp : DataPlane) : Option (Nat × DataPlane) :=
  match SMap.get none dp.pools id with
  | none => none
  | some k =>
    let free := poolField dp k 0x20
    if free = 0 then none
    else
      let page := readNat dp.mem.dev (k.stack + 4 * (free - 1)) 4
      let dp := (dp.put t (k.desc + 0x20) 4 (free - 1)).put t (k.refAddr page) 2 1
      if free - 1 < k.lowater && !k.low then some (page, poolLowEvent env (dp.setPool id { k with low := true }) id k t)
      else some (page, dp)

/-- Launches that have been dispatched and have not completed, by queue and sequence (R157). -/
def dispatched (dp : DataPlane) : List (Nat × Nat) :=
  (dp.launches.filter (fun l => l.stage = .staged || l.stage = .running || l.stage = .engine || l.stage = .stopping ||
    l.stage = .counted)).map (fun l => (l.q, l.seq))

/-- A page whose count has fallen to 0 joins the pending set (R157). -/
def pendPage (t id page : Nat) (dp : DataPlane) : DataPlane :=
  match SMap.get none dp.pools id with
  | none => dp
  | some k =>
    (dp.setPool id { k with pending := k.pending ++ [(page, dispatched dp)] }).put t (k.desc + 0x24) 4
      (poolField dp k 0x24 + 1)

/-- Decrement a page's count, and release it at 0 (R157). -/
def dropRef (t id page : Nat) (dp : DataPlane) : DataPlane :=
  match SMap.get none dp.pools id with
  | none => dp
  | some k =>
    let c := readNat dp.mem.dev (k.refAddr page) 2
    let dp := dp.put t (k.refAddr page) 2 (c - 1)
    if c ≤ 1 then pendPage t id page dp else dp

/-- Registered pools of a partition. -/
def poolCount (dp : DataPlane) (p : Nat) : Nat := ((List.range 64).filter (fun i => (dp.poolOf p i).isSome)).length

/-- A range inside HBM that a partition may read and write. -/
def hbmShare (dp : DataPlane) (p a n : Nat) : Bool :=
  a + n ≤ hbmSize && (accessCheck dp p none .read a n).isNone && (accessCheck dp p none .write a n).isNone

/-- The pool that a 64-byte descriptor describes (R156). -/
def poolOfDesc (p a : Nat) (b : List Byte) : KvPool :=
  { part := p, desc := a, base := fld b 0 8, psz := fld b 8 1, scrub := bit (fld b 9 1) 0, pages := fld b 12 4,
    refs := fld b 16 8, stack := fld b 24 8, lowater := fld b 40 4, pending := [], low := false }

/-- KV_POOL_INIT's checks of a descriptor (R156). -/
def poolDescOk (dp : DataPlane) (p res : Nat) (b : List Byte) : Bool :=
  let k := poolOfDesc p 0 b
  k.psz ≤ 5 && fld b 9 1 ≤ 1 && zeros b 10 2 && zeros b 0x2C 20 && 1 ≤ k.pages && k.pages ≤ 2 ^ 24 &&
  k.base % k.pageSize = 0 && k.refs % 16 = 0 && k.stack % 16 = 0 && res % 4 = 0 &&
  hbmShare dp p k.base (k.pages * k.pageSize) && hbmShare dp p k.refs (2 * k.pages) &&
  hbmShare dp p k.stack (4 * k.pages)

/-- KV_POOL_INIT (R156): fills the free stack with page 0 on top, zeroes the counts, and writes the pool's ID. -/
def kvPoolInit (t : Nat) (dp : DataPlane) (q : QEntry) : EngineM DataPlane := do
  let p := dp.cls t
  let a := fld q.desc 0 8
  let res := fld q.desc 8 8
  let b ← atIssue (checkedRead dp p (some t) a 64)
  require stKvPoolInvalid (poolDescOk dp p res b && poolCount dp p < (dp.part p).kvpools)
  atIssue (checkAccess dp p (some t) .write res 4)
  atIssue (checkAccess dp p (some t) .write a 64)
  let k := poolOfDesc p a b
  match (List.range 64).find? (fun i => (SMap.get none dp.pools i).isNone) with
  | none => .error { fault := EFault.plain stKvPoolInvalid }
  | some i =>
    let dp := dp.tileWrites t
      [(k.stack, (List.range k.pages).flatMap (fun j => leBytes 4 (k.pages - 1 - j))),
       (k.refs, List.replicate (2 * k.pages) 0), (a + 0x20, leBytes 4 k.pages ++ leBytes 4 0), (res, leBytes 4 i)]
    pure (dp.setPool i k)

/-! ### Regions -/

/-- Page-table entry of a region in memory. -/
def Region.pte (r : Region) (dp : DataPlane) (l b : Nat) : Nat := readNat dp.mem.dev (r.pteAddr l b) 4

/-- Every (layer, block) of a block range, layer by layer. -/
def Region.blockList (r : Region) (lo hi : Nat) : List (Nat × Nat) :=
  (List.range r.fd.layers).flatMap (fun l => (List.range (hi - lo)).map (fun i => (l, lo + i)))

/-- The region's page table and entry may be changed, and its lock taken (R162, R238). -/
def checkRegionWrite (dp : DataPlane) (p t : Nat) (r : Region) : Except EFault Unit := do
  checkAccess dp p (some t) .atomic (r.at_ + 0x1C) 4
  checkRanges dp p (some t) .write [(r.at_, 64), (r.ent.pt, 4 * r.fd.layers * r.blocks)]
  checkRanges dp p (some t) .read [(r.ent.pt, 4 * r.fd.layers * r.blocks)]

/-- Virtual range of a live entry with a registered pool (R159). -/
def entRange (dp : DataPlane) (p : Nat) (e : RegEnt) : Option (Nat × Nat) :=
  match dp.poolOf p e.pool with
  | none => none
  | some k => if e.state = 1 then some (e.vbase, e.layers * ceilDiv e.maxlen 128 * k.pageSize) else none

/-- Live regions of a partition, as their virtual ranges. -/
def liveRanges (dp : DataPlane) (p : Nat) : List (Nat × Nat) :=
  (List.range (dp.part p).rtlen).filterMap (fun i =>
    if i = 0 then none else entRange dp p (regEntOf (readBytes dp.mem.dev (regEntAddr (dp.part p) i) 64)))

/-- KV_CREATE (R159). -/
def kvCreate (t : Nat) (dp : DataPlane) (q : QEntry) : EngineM DataPlane := do
  let p := dp.cls t
  let h := fld q.desc 0 8
  let ba := fld q.desc 8 8
  let res := fld q.desc 16 8
  let e ← atIssue (readEntry dp p (some t) h)
  require stKvRegionInvalid (h < 2 ^ 32 && e.state = 0 && ba % 16 = 0 && res % 4 = 0)
  let b ← atIssue (checkedRead dp p (some t) ba 32)
  require stKvRegionInvalid (fld b 0x1D 1 = 0)
  let maxlen := fld b 0x18 4
  require stKvLengthLimit (1 ≤ maxlen && maxlen ≤ 1048576)
  match dp.poolOf p (fld b 0x1C 1) with
  | none => .error { fault := EFault.plain stKvRegionInvalid }
  | some k => do
    let fd ← atIssue (readFmtDesc dp p (some t) (fld b 0x10 8))
    require stKvRegionInvalid (fd.layers = fld b 0x1E 2 && fd.used ≤ k.pageSize)
    let vb := fld b 0 8
    let pt := fld b 8 8
    let blocks := ceilDiv maxlen 128
    let vlen := fd.layers * blocks * k.pageSize
    require stKvRegionInvalid (vb % k.pageSize = 0 && vb + vlen ≤ 2 ^ 50 && !meets [(vb, vlen)] (liveRanges dp p) &&
      pt % 16 = 0)
    let at_ := regEntAddr (dp.part p) (handleIdx h)
    atIssue (checkAccess dp p (some t) .atomic (at_ + 0x1C) 4)
    atIssue (checkRanges dp p (some t) .write [(at_, 64), (pt, 4 * fd.layers * blocks), (res, 4)])
    let gen := (e.gen + 1) % 65536
    let ent := leBytes 1 1 ++ leBytes 1 (fld b 0x1C 1) ++ leBytes 2 fd.layers ++ leBytes 2 gen ++ leBytes 2 0 ++
      leBytes 8 vb ++ leBytes 4 maxlen ++ leBytes 4 0 ++ leBytes 4 0 ++ leBytes 4 0 ++ leBytes 8 pt ++
      leBytes 8 (fld b 0x10 8)
    pure (dp.tileWrites t [(at_, ent), (pt, List.replicate (4 * fd.layers * blocks) 0),
      (res, leBytes 4 (handleIdx h + 65536 * gen))])

/-- Conditions of KV_FORK that fail with KV_REGION_INVALID (R163). -/
def forkOk (dp : DataPlane) (src dst : Region) (n : Nat) : Bool :=
  dst.ent.len = 0 && (dst.blockList 0 dst.blocks).all (fun b => !pteV (dst.pte dp b.1 b.2)) &&
  src.ent.fmt = dst.ent.fmt && src.ent.pool = dst.ent.pool && n ≤ src.ent.len &&
  (src.blockList 0 (ceilDiv n 128)).all (fun b => pteV (src.pte dp b.1 b.2))

/-- Share one block (R163). -/
def forkBlock (t : Nat) (src dst : Region) (dp : DataPlane) (b : Nat × Nat) : DataPlane :=
  let pg := ptePage (src.pte dp b.1 b.2)
  let ra := src.pool.refAddr pg
  let dp := dp.put t ra 2 (readNat dp.mem.dev ra 2 + 1)
  (dp.put t (dst.pteAddr b.1 b.2) 4 (pteMake true pg)).put t (src.pteAddr b.1 b.2) 4 (pteMake true pg)

/-- KV_FORK (R163). -/
def kvFork (t : Nat) (dp : DataPlane) (q : QEntry) : EngineM DataPlane := do
  let p := dp.cls t
  let n := fld q.desc 16 8
  let src ← atIssue (readRegion dp p (some t) (fld q.desc 0 8 % 2 ^ 32))
  let dst ← atIssue (readRegion dp p (some t) (fld q.desc 8 8 % 2 ^ 32))
  atIssue (checkRegionWrite dp p t src)
  atIssue (checkRegionWrite dp p t dst)
  require stKvRegionInvalid (fld q.desc 0 8 < 2 ^ 32 && fld q.desc 8 8 < 2 ^ 32 && forkOk dp src dst n)
  require stKvLengthLimit (n ≤ dst.ent.maxlen)
  let bl := src.blockList 0 (ceilDiv n 128)
  require stKvRefcountLimit (bl.all (fun b =>
    readNat dp.mem.dev (src.pool.refAddr (ptePage (src.pte dp b.1 b.2))) 2 < 65535))
  let dp := bl.foldl (forkBlock t src dst) dp
  pure ((dp.put t (dst.at_ + 0x14) 4 n).put t (dst.at_ + 0x18) 4 n)

/-! ### Reservation -/

/-- Copy a whole page (R164). -/
def copyPage (t : Nat) (k : KvPool) (old new : Nat) (dp : DataPlane) : DataPlane :=
  dp.tileWrite t (k.pageAddr new) (readBytes dp.mem.dev (k.pageAddr old) k.pageSize)

/-- The first poisoned granule of a page. -/
def pagePoison (dp : DataPlane) (k : KvPool) (pg : Nat) : Option Nat := poisonedAt dp.mem (k.pageAddr pg) k.pageSize

/-- Make one block private (R164). `none` when the pool has run out; `taken` collects the pages popped. -/
def makePrivate (env : Env) (t : Nat) (r : Region) (dp : DataPlane) (b : Nat × Nat) : Option (DataPlane × List Nat) :=
  let x := r.pte dp b.1 b.2
  let pa := r.pteAddr b.1 b.2
  if !pteV x then
    match popPage env t r.poolId dp with
    | none => none
    | some (pg, dp) => some (dp.put t pa 4 (pteMake false pg), [pg])
  else if !pteRo x then some (dp, [])
  else if readNat dp.mem.dev (r.pool.refAddr (ptePage x)) 2 = 1 then some (dp.put t pa 4 (pteMake false (ptePage x)), [])
  else
    match popPage env t r.poolId dp with
    | none => none
    | some (pg, dp) =>
      let dp := (copyPage t r.pool (ptePage x) pg dp).put t pa 4 (pteMake false pg)
      some (dropRef t r.poolId (ptePage x) dp, [pg])

/-- Make blocks private in order; `.inr` holds the pages taken when the pool runs out. -/
def makeAll (env : Env) (t : Nat) (r : Region) : List (Nat × Nat) → DataPlane → List Nat → DataPlane ⊕ List Nat
  | [], dp, _ => .inl dp
  | b :: rest, dp, taken =>
    match makePrivate env t r dp b with
    | none => .inr taken
    | some (dp, pgs) => makeAll env t r rest dp (taken ++ pgs)

/-- Blocks that hold slots CTX to CTX + NEW − 1 (R170). -/
def reserveBlocks (r : Region) (e : SEntry) : List (Nat × Nat) :=
  r.blockList (e.ctx / 128) (ceilDiv (e.ctx + e.new) 128)

/-- Give back the pages that a failing entry took (R170): popped, then released as R157 says. -/
def giveBack (env : Env) (t id : Nat) (taken : List Nat) (dp : DataPlane) : DataPlane :=
  let dp := taken.foldl (fun dp _ => match popPage env t id dp with
    | some (_, d) => d
    | none => dp) dp
  taken.foldl (fun dp pg => dropRef t id pg dp) dp

/-- Reserve the entries in table order (R170): `.inl` when all are reserved, `.inr` with the count reserved. -/
def reserveEntries (env : Env) (p t : Nat) : List SEntry → Nat → DataPlane → DataPlane ⊕ (DataPlane × Nat)
  | [], _, dp => .inl dp
  | e :: rest, n, dp =>
    if e.region = 0 then reserveEntries env p t rest (n + 1) dp
    else match readRegion dp p (some t) e.region with
      | .error _ => .inr (dp, n)
      | .ok r =>
        match makeAll env t r (reserveBlocks r e) dp [] with
        | .inr taken => .inr (giveBack env t r.poolId taken dp, n)
        | .inl dp =>
          reserveEntries env p t rest (n + 1) (dp.put t (r.at_ + 0x18) 4 (max r.ent.resv (e.ctx + e.new)))

/-- Resolve the regions of a table, in order; entries without one are skipped. -/
def tableRegions (dp : DataPlane) (p t : Nat) : List SEntry → Except EFault (List (SEntry × Region))
  | [] => .ok []
  | e :: r =>
    if e.region = 0 then tableRegions dp p t r
    else do
      let g ← readRegion dp p (some t) e.region
      let gs ← tableRegions dp p t r
      pure ((e, g) :: gs)

/-- Regions' write checks, in order. -/
def checkRegionsWrite (dp : DataPlane) (p t : Nat) : List (SEntry × Region) → Except EFault Unit
  | [] => .ok ()
  | g :: r => do
    checkRegionWrite dp p t g.2
    checkRegionsWrite dp p t r

/-- A poisoned page that copy-on-write would read (R221). -/
def reservePoison (dp : DataPlane) (gs : List (SEntry × Region)) : Option Nat :=
  gs.findSome? (fun g => (reserveBlocks g.2 g.1).findSome? (fun b =>
    let x := g.2.pte dp b.1 b.2
    if pteV x && pteRo x && readNat dp.mem.dev (g.2.pool.refAddr (ptePage x)) 2 ≠ 1 then
      pagePoison dp g.2.pool (ptePage x)
    else none))

/-- KV_RESERVE (R169, R170), as far as its first `lim` sequences. -/
def kvReserve (env : Env) (t lim : Nat) (dp : DataPlane) (q : QEntry) : EngineM DataPlane := do
  let p := dp.cls t
  let a := fld q.desc 0 8
  let tb ← atIssue (readTable dp p (some t) a)
  let gs ← atIssue (tableRegions dp p t tb.entries)
  require stStencilInvalid (gs.all (fun g => g.1.ctx = g.2.ent.len))
  require stKvLengthLimit (gs.all (fun g => g.1.ctx + g.1.new ≤ g.2.ent.maxlen))
  atIssue (checkRegionsWrite dp p t gs)
  atIssue (checkAccess dp p (some t) .write a 64)
  match reservePoison dp gs with
  | some g => .error { fault := EFault.poison_ g }
  | none =>
    match reserveEntries env p t (tb.entries.take lim) 0 dp with
    | .inl dp =>
      pure (if tb.entries.length ≤ lim then (dp.put t (a + 0x10) 2 tb.entries.length).put t (a + 2) 1 1 else dp)
    | .inr (dp, n) =>
      .error { fault := EFault.plain stKvPoolExhausted, after := fun _ => (dp.put t (a + 0x10) 2 n).put t (a + 2) 1 0 }

/-! ### Commit, truncate, free -/

/-- The accepted path of an entry: empty for 0xFF, and for MODE 0 (R174). -/
def acceptedPath (e : SEntry) (acc : Nat) : List Nat := if e.mode = 0 || acc = 255 then [] else e.path acc

/-- Slot moves of a commit, (from, to), in ascending order (R174). -/
def commitMoves (e : SEntry) (acc : Nat) : List (Nat × Nat) :=
  let base := e.ctx + e.v
  let path := acceptedPath e acc
  (List.range path.length).filterMap (fun j =>
    let k := path.getD j 0
    if k = j then none else some (base + k, base + j))

/-- Byte moves of one slot move in one layer: K, K scale and V of every head (R155, R174). -/
def slotMoves (dp : DataPlane) (r : Region) (l s d : Nat) : List (Nat × Nat × Nat) :=
  let f := r.fd
  let ps := r.pool.pageAddr (ptePage (r.pte dp l (s / 128)))
  let pd := r.pool.pageAddr (ptePage (r.pte dp l (d / 128)))
  (List.range f.h).flatMap (fun h =>
    (ps + f.kOff h (s % 128), pd + f.kOff h (d % 128), f.pk) ::
    (if f.kvfmt = 2 then [(ps + f.ksOff h (s % 128), pd + f.ksOff h (d % 128), ceilDiv f.dh 128)] else []) ++
    (List.range f.dh).map (fun x =>
      (ps + f.vOff h x + s % 128 * f.e, pd + f.vOff h x + d % 128 * f.e, f.e)))

/-- Move bytes, one range after another. -/
def moveBytes (t : Nat) (dp : DataPlane) (ms : List (Nat × Nat × Nat)) : DataPlane :=
  ms.foldl (fun dp m => dp.tileWrite t m.2.1 (readBytes dp.mem.dev m.1 m.2.2)) dp

/-- Close one entry's step (R174). -/
def commitEntry (t : Nat) (r : Region) (e : SEntry) (acc : Nat) (dp : DataPlane) : DataPlane :=
  let dp := (commitMoves e acc).foldl (fun dp m =>
    (List.range r.fd.layers).foldl (fun dp l => moveBytes t dp (slotMoves dp r l m.1 m.2)) dp) dp
  dp.put t (r.at_ + 0x14) 4 (e.ctx + e.v + (acceptedPath e acc).length)

/-- Conditions of a commit on one entry with its region (R174). -/
def commitOk (dp : DataPlane) (e : SEntry) (r : Region) (acc : Nat) : Bool :=
  e.ctx = r.ent.len && e.ctx + e.new ≤ r.ent.resv &&
  (commitMoves e acc).all (fun m => (List.range r.fd.layers).all (fun l => [m.1, m.2].all (fun s =>
    pteV (r.pte dp l (s / 128)) && !pteRo (r.pte dp l (s / 128)))))

/-- Commit the entries in order. -/
def commitEntries (p t : Nat) (acc : List Nat) : List (Nat × SEntry) → DataPlane → DataPlane
  | [], dp => dp
  | (i, e) :: rest, dp =>
    match (if e.region = 0 then .error (EFault.plain 0) else readRegion dp p (some t) e.region) with
    | .error _ => commitEntries p t acc rest dp
    | .ok r => commitEntries p t acc rest (commitEntry t r e (acc.getD i 255) dp)

/-- A list with its indices. -/
def indexed {α : Type} (n : Nat) : List α → List (Nat × α)
  | [] => []
  | x :: r => (n, x) :: indexed (n + 1) r

/-- KV_COMMIT (R174), as far as its first `lim` sequences. -/
def kvCommit (t lim : Nat) (dp : DataPlane) (q : QEntry) : EngineM DataPlane := do
  let p := dp.cls t
  let tb ← atIssue (readTable dp p (some t) (fld q.desc 0 8))
  let gs ← atIssue (tableRegions dp p t tb.entries)
  let ab ← atIssue (checkedRead dp p (some t) (fld q.desc 8 8) tb.entries.length)
  let acc := ab.map (·.toNat)
  let es := indexed 0 tb.entries
  require stKvCommitInvalid (es.all (fun x =>
    x.2.mode = 0 || acc.getD x.1 255 = 255 || acc.getD x.1 255 < x.2.cand))
  require stKvCommitInvalid (es.all (fun x =>
    x.2.region = 0 || (match readRegion dp p (some t) x.2.region with
      | .error _ => false
      | .ok r => commitOk dp x.2 r (acc.getD x.1 255))))
  atIssue (checkRegionsWrite dp p t gs)
  pure (commitEntries p t acc (es.take lim) dp)

/-- Drop one block: clear its entry and decrement its page's count (R175). -/
def dropBlock (t : Nat) (r : Region) (dp : DataPlane) (b : Nat × Nat) : DataPlane :=
  let x := r.pte dp b.1 b.2
  let dp := dp.put t (r.pteAddr b.1 b.2) 4 0
  if pteV x then dropRef t r.poolId (ptePage x) dp else dp

/-- KV_TRUNCATE (R175). -/
def kvTruncate (t : Nat) (dp : DataPlane) (q : QEntry) : EngineM DataPlane := do
  let p := dp.cls t
  let n := fld q.desc 8 8
  let r ← atIssue (readRegion dp p (some t) (fld q.desc 0 8 % 2 ^ 32))
  require stKvRegionInvalid (fld q.desc 0 8 < 2 ^ 32)
  require stKvLengthLimit (n ≤ r.ent.len)
  atIssue (checkRegionWrite dp p t r)
  let dp := (r.blockList (ceilDiv n 128) r.blocks).foldl (dropBlock t r) dp
  pure ((dp.put t (r.at_ + 0x14) 4 n).put t (r.at_ + 0x18) 4 n)

/-- KV_FREE (R175). -/
def kvFree (t : Nat) (dp : DataPlane) (q : QEntry) : EngineM DataPlane := do
  let p := dp.cls t
  let r ← atIssue (readRegion dp p (some t) (fld q.desc 0 8 % 2 ^ 32))
  require stKvRegionInvalid (fld q.desc 0 8 < 2 ^ 32)
  atIssue (checkRegionWrite dp p t r)
  let dp := (r.blockList 0 r.blocks).foldl (dropBlock t r) dp
  pure (dp.put t r.at_ 1 0)

/-! ### The commands -/

/-- Handles that a Stencil table names. -/
def tableHandles (dp : DataPlane) (t a : Nat) : List Nat :=
  match readTable dp (dp.cls t) (some t) a with
  | .ok tb => tb.entries.map (·.region)
  | .error _ => []

/-- Handles of the regions that an operation changes. -/
def regionHandles (dp : DataPlane) (t : Nat) (q : QEntry) : List Nat :=
  match q.op with
  | 1 => []
  | 3 => [fld q.desc 0 4, fld q.desc 8 4]
  | 4 => tableHandles dp t (fld q.desc 0 8)
  | 5 => tableHandles dp t (fld q.desc 0 8)
  | _ => [fld q.desc 0 4]

/-- Addresses of the LOCK words of handles that name an entry. -/
def lockWords (dp : DataPlane) (t : Nat) (q : QEntry) : List Nat :=
  let p := dp.part (dp.cls t)
  (((regionHandles dp t q).map handleIdx).eraseDups.filter (fun i => i ≠ 0 && i < p.rtlen)).map (fun i => regEntAddr p i + 0x1C)

/-- Carry an operation out, as far as its first `lim` sequences. -/
def regionPerform (env : Env) (t lim : Nat) (dp : DataPlane) (q : QEntry) : EngineM DataPlane :=
  match q.op with
  | 1 => kvPoolInit t dp q
  | 2 => kvCreate t dp q
  | 3 => kvFork t dp q
  | 4 => kvReserve env t lim dp q
  | 5 => kvCommit t lim dp q
  | 6 => kvTruncate t dp q
  | _ => kvFree t dp q

/-- More sequences than any operation has. -/
def allSequences : Nat := 4096

/-- An operation starts: it fails as it would if carried out, and otherwise takes the locks of its regions, each by
writing the translator's master ID plus 1 (R162). -/
def regionStart (env : Env) (t : Nat) (dp : DataPlane) (q : QEntry) : EngineM EngineEffect := do
  let _ ← regionPerform env t allSequences dp q
  let ws := lockWords dp t q
  pure { dp := ws.foldl (fun dp a => dp.put t a 4 (8 * t + 7)) dp, locks := ws }

/-- A running operation carries its changes out and gives its locks back. Answers how it fails, if it does. -/
def regionFinish (env : Env) (t lim : Nat) (dp : DataPlane) (r : Running) : DataPlane × Option EFault :=
  let unlock := fun (dp : DataPlane) => r.locks.foldl (fun dp a => dp.put t a 4 0) dp
  match regionPerform env t lim dp r.entry with
  | .ok dp => (unlock dp, none)
  | .error f => (unlock (f.after dp), some f.fault)

/-- Run a region operation of the CTL stream once the locks that it needs are free (R162). -/
def runRegion (t op : Nat) (s : State) : Out :=
  s.work (fun env dp => runEngine env dp t 0 6 (fun q => q.op = op && (lockWords dp t q).all (fun a => readNat dp.mem.dev a 4 = 0))
    (regionStart env t))

/-- KV_POOL_INIT. -/
def execKvPoolInit (t : Nat) (s : State) : Out := runRegion t 1 s

/-- KV_CREATE. -/
def execKvCreate (t : Nat) (s : State) : Out := runRegion t 2 s

/-- KV_FORK. -/
def execKvFork (t : Nat) (s : State) : Out := runRegion t 3 s

/-- KV_RESERVE. -/
def execKvReserve (t : Nat) (s : State) : Out := runRegion t 4 s

/-- KV_COMMIT. -/
def execKvCommit (t : Nat) (s : State) : Out := runRegion t 5 s

/-- KV_TRUNCATE. -/
def execKvTruncate (t : Nat) (s : State) : Out := runRegion t 6 s

/-- KV_FREE. -/
def execKvFree (t : Nat) (s : State) : Out := runRegion t 7 s

/-! ### Pending pages -/

/-- A pending page whose launches have all completed (R157). -/
def pageDue (dp : DataPlane) (x : Nat × List (Nat × Nat)) : Bool :=
  x.2.all (fun l => !dp.launches.any (fun r => r.q = l.1 && r.seq = l.2))

/-- Push one page back, zeroed first under SCRUB (R157). -/
def pushPage (id : Nat) (k : KvPool) (page : Nat) (dp : DataPlane) : DataPlane :=
  let free := poolField dp k 0x20
  let pend := poolField dp k 0x24
  let m := if k.scrub then dp.mem.zero (k.pageAddr page) (k.pageAddr page + k.pageSize) else dp.mem
  let m := ((m.write (k.stack + 4 * free) (leBytes 4 page)).write (k.desc + 0x20) (leBytes 4 (free + 1))).write
    (k.desc + 0x24) (leBytes 4 (pend - 1))
  { dp with mem := m }.setPool id { k with
    pending := k.pending.filter (fun x => x.1 ≠ page)
    low := k.low && free + 1 < k.lowater }

/-- KV_PAGE_RELEASE: the oldest pending page that is due goes back on the free stack (R157). -/
def execKvPageRelease (pool : Nat) (s : State) : Out :=
  s.work (fun _ dp =>
    match SMap.get none dp.pools pool with
    | none => dp
    | some k =>
      match k.pending.find? (pageDue dp) with
      | none => dp
      | some x => pushPage pool k x.1 dp)

end Sys2Proof.Machine
end

