-- ==== Sys2Proof/Machine/Fabric.lean ====
section
/-! DEFINITION. The fabric's common parts: the 256-byte flit (R347), coordinates and the link plan (R9, R343, R354),
packets cut into flits, cells and manager roles (R366), and the reports of modules to their managers (R367). -/

namespace Sys2Proof
open Machine

/-! ### Flits -/

/-- TYPE of R347. -/
def FlitType.code : FlitType → Nat
  | .idle => 0 | .data => 1 | .control => 2 | .plumb => 3 | .identity => 4 | .reserved n => n

def FlitType.ofCode (n : Nat) : FlitType :=
  if n = 0 then .idle else if n = 1 then .data else if n = 2 then .control else if n = 3 then .plumb
  else if n = 4 then .identity else .reserved n

/-- The 96 header bits (R347). -/
def Flit.header (x : Flit) : Nat :=
  x.type.code % 16 + x.vc % 8 * 2 ^ 4 + b2n x.cls * 2 ^ 7 + x.seq % 4096 * 2 ^ 8 + x.ack % 4096 * 2 ^ 20 +
  x.cvc % 8 * 2 ^ 32 + x.ccnt % 64 * 2 ^ 35 + x.dest % 2 ^ 15 * 2 ^ 41 + x.src % 2 ^ 15 * 2 ^ 56 + b2n x.first * 2 ^ 71 +
  b2n x.last * 2 ^ 72 + b2n x.poison * 2 ^ 73 + b2n x.detour * 2 ^ 74 + b2n x.dhop * 2 ^ 75

/-- A payload of 240 bytes. -/
def padPayload (bs : List Byte) : List Byte := (bs ++ List.replicate 240 0).take 240

/-- A flit's 252 bytes before its CRC. -/
def Flit.body (x : Flit) : List Byte := leBytes 12 x.header ++ padPayload x.payload

/-- The 256 bytes of a flit: header, payload and CRC-32 (R347). -/
def Flit.bytes (x : Flit) : List Byte := x.body ++ leBytes 4 (crc32 x.body)

/-- The fields of a flit's bytes. -/
def Flit.ofBytes (bs : List Byte) : Flit :=
  let h := leNat (bs.take 12)
  { type := FlitType.ofCode (bits h 3 0), vc := bits h 6 4, cls := bit h 7, seq := bits h 19 8, ack := bits h 31 20,
    cvc := bits h 34 32, ccnt := bits h 40 35, dest := bits h 55 41, src := bits h 70 56, first := bit h 71,
    last := bit h 72, poison := bit h 73, detour := bit h 74, dhop := bit h 75, payload := (bs.drop 12).take 240 }

/-- A received flit, when its CRC-32 over bytes 0 to 251 holds (R347) and its channels are among the six (log
entry 75). -/
def Flit.receive (bs : List Byte) : Option Flit :=
  let x := Flit.ofBytes bs
  if bs.length = 256 && crc32 (bs.take 252) = leNat (bs.drop 252) && x.vc < 6 && x.cvc < 6 then some x else none

/-- A flit of this module's own before its link numbers it: to a module, on a virtual channel. -/
def Flit.own (type : FlitType) (vc dest src : Nat) (payload : List Byte) : Flit :=
  { type := type, vc := vc, cls := false, seq := 0, ack := 0, cvc := 0, ccnt := 0, dest := dest, src := src,
    first := true, last := true, poison := false, detour := false, dhop := false, payload := padPayload payload }

/-- Buffer class of a flit on VCs 1 to 5 (R347, R358); VC 0 has one class. -/
def Flit.bufClass (x : Flit) : Nat := if x.vc = 0 then 0 else if !x.detour then b2n x.cls else if x.dhop then 2 else 3 + b2n x.cls

/-- A report's values for a message. -/
def Report.values (r : Report) : List Nat :=
  [r.src, b2n r.plumbAligned, r.plumbDepth] ++ r.links ++ r.classes ++ r.widths ++ r.groups ++ r.retrains ++
  r.offsets.map (fun o => (o % 2 ^ 64).toNat)

end Sys2Proof

namespace Sys2Proof.Machine

def Fabric.link (f : Fabric) (i : Nat) : Link := SMap.get Link.init f.links i
def Fabric.setLink (f : Fabric) (i : Nat) (l : Link) : Fabric := { f with links := SMap.set Link.init f.links i l }
def State.setLink (s : State) (i : Nat) (l : Link) : State := { s with fb := s.fb.setLink i l }

/-! ### Geometry -/

/-- Coordinate of a device ID in dimension 0 (x), 1 (y) or 2 (z) (R9). -/
def coordOf (id d : Nat) : Nat := if d = 0 then bits id 14 10 else if d = 1 then bits id 9 5 else bits id 4 0

/-- Size of a dimension (R354). -/
def FabCfg.size (c : FabCfg) (d : Nat) : Nat := if d = 0 then c.dx else if d = 1 then c.dy else c.dz

/-- The link of a dimension and direction (R343). -/
def linkOf (d : Nat) (minus : Bool) : Nat := 2 * d + b2n minus

def PlanEntry.noneEntry : PlanEntry := ⟨false, 0, 0⟩
def FabCfg.planOf (c : FabCfg) (i : Nat) : PlanEntry := c.plan.getD i PlanEntry.noneEntry

/-- A link's planned neighbour: the identity that a RELEASE gave it, or the plan's (R356). -/
def Fabric.planned (f : Fabric) (i : Nat) : PlanEntry :=
  match (f.link i).released with
  | some id => ⟨true, id.dev, id.link⟩
  | none => f.cfg.planOf i

/-! ### Packets -/

/-- Flits of a message (R347): one for each 240 bytes of its data and at least one, the first and the last marked
(log entry 75). -/
def FabMsg.flits (m : FabMsg) (src : Nat) : List Flit :=
  let n := max 1 ((m.data.length + 239) / 240)
  let bs := Config.packetBytes m.kind m.args m.data
  (List.range n).map (fun k =>
    { Flit.own .data m.vc m.dest src ((bs.drop (240 * k)).take 240) with
      first := k = 0, last := k + 1 = n, poison := m.poison })

/-! ### Cells, roles and reports -/

/-- Modules of one cell (R366). -/
def sameCell (a b : Nat) : Bool := (List.range 3).all (fun d => coordOf a d / 4 = coordOf b d / 4)

/-- Device ID of a role's configured manager and deputy (R354). The fabric manager is also its own cell's manager
(R366). -/
def managerId (c : FabCfg) : Role → Nat
  | .fabric => c.fm
  | .cell => if sameCell c.fm c.id then c.fm else c.cm
def deputyId (c : FabCfg) : Role → Nat
  | .fabric => c.fmDep
  | .cell => c.cmDep

def Fabric.role (f : Fabric) : Role → Manager
  | .fabric => f.fabricMgr
  | .cell => f.cellMgr
def Fabric.setRole (f : Fabric) (r : Role) (m : Manager) : Fabric :=
  match r with
  | .fabric => { f with fabricMgr := m }
  | .cell => { f with cellMgr := m }

/-- The address this module uses for a role. -/
def Fabric.addr (f : Fabric) : Role → Nat
  | .fabric => f.fmAddr
  | .cell => f.cmAddr
def Fabric.setAddr (f : Fabric) (r : Role) (id : Nat) : Fabric :=
  match r with
  | .fabric => { f with fmAddr := id }
  | .cell => { f with cmAddr := id }

/-- Where this module sends its reports: to its cell manager, or straight to the fabric manager when its cell has none
(R367, R368). -/
def Fabric.reportTo (f : Fabric) : Nat := if f.orphan then f.fmAddr else f.cmAddr

/-- Device IDs in a role's scope (R366, R368): the system, or this module's cell. -/
def roleScope (c : FabCfg) (r : Role) : List Nat :=
  let ids := (List.range c.dx).flatMap (fun x => (List.range c.dy).flatMap (fun y => (List.range c.dz).map (fun z =>
    x * 1024 + y * 32 + z)))
  match r with
  | .fabric => ids
  | .cell => ids.filter (sameCell c.id)

/-- JLINK_STATUS.STATE (R378). -/
def LinkSt.code : LinkSt → Nat
  | .absent => 0 | .training => 1 | .up => 2 | .quarantine => 3 | .down => 4 | .disabled => 5

/-- What this module reports (R352, R359, R367, R372). -/
def Fabric.report (f : Fabric) : Report :=
  let each := fun (g : Link → Nat) => (List.range 6).map (fun i => g (f.link i))
  { src := f.cfg.id, links := each (·.st.code), classes := each (·.disc), widths := each (·.width), groups := each (·.lgrp),
    retrains := each (·.retrains), offsets := (List.range 6).map (fun i => (f.link i).offset.getD 0),
    plumbAligned := f.plumb.aligned, plumbDepth := f.plumb.depth }

/-- Keep a module's last report. -/
def Manager.keep (m : Manager) (r : Report) : Manager := { m with reports := m.reports.filter (fun x => x.src ≠ r.src) ++ [r] }

/-- A manager takes a report (R367): the fabric manager keeps it in its system view; a cell manager merges its cell's
reports and forwards the merged report to the fabric manager. -/
def takeReport (s : State) (r : Report) : State :=
  if s.fb.fabricMgr.active then { s with fb := s.fb.setRole .fabric (s.fb.fabricMgr.keep r) }
  else if s.fb.cellMgr.active && sameCell r.src s.fb.cfg.id then
    let m := s.fb.cellMgr.keep r
    { s with fb := s.fb.setRole .cell m, dp := s.dp.send "cell-report" s.fb.fmAddr (m.reports.flatMap Report.values) [] }
  else s

/-- The module reports to its manager (R367); a manager takes its own report. -/
def State.report (s : State) : State :=
  let f := s.fb
  if !f.cfg.valid then s
  else if f.reportTo = f.cfg.id then takeReport s f.report
  else { s with dp := s.dp.send "report" f.reportTo f.report.values [] }

end Sys2Proof.Machine
end

