-- ==== Sys2Proof/Machine/Links.lean ====
section
/-! DEFINITION. Jothen links (R343 to R356): training, identity, flits with retry and credits, failure and detour
(R357 to R361), route rewrites (R365), and the managers (R366 to R368). -/

namespace Sys2Proof.Machine

/-! ### Routes -/

/-- Direction of the route to a coordinate: true is −. Shorter way; a tie goes +, or − when the + link trained
narrower (R359); on an open line, the only direction that gets there (R357). -/
def routeMinus (f : Fabric) (d dest : Nat) : Bool :=
  let n := f.cfg.size d
  let own := coordOf f.cfg.id d
  let up := (dest + n - own) % n
  let down := (own + n - dest) % n
  let plusEnd := !(f.cfg.planOf (linkOf d false)).v
  let minusEnd := !(f.cfg.planOf (linkOf d true)).v
  if plusEnd || minusEnd then decide (dest < own)
  else if up < down then false
  else if down < up then true
  else decide ((f.link (linkOf d false)).width < (f.link (linkOf d true)).width)

/-- The route table: one direction for each dimension and destination coordinate (R357); true is −. -/
def routeTable (f : Fabric) : SMap Bool :=
  ((List.range 3).flatMap (fun d => (List.range (f.cfg.size d)).map (fun x => (d, x)))).foldl
    (fun m dx => SMap.set false m (dx.1 * 32 + dx.2) (routeMinus f dx.1 dx.2)) []

/-- The direction in force, with the rewrites whose Plumb time has come (R365). -/
def Fabric.goesMinus (f : Fabric) (d x : Nat) : Bool :=
  (f.rewrites.filter (fun w => w.1 ≤ f.plumb.ns)).foldl
    (fun r w => w.2.foldl (fun r e => if e.dim = d && e.coord = x then !e.plus else r) r)
    (SMap.get false f.routes (d * 32 + x))

/-- First dimension in which a destination differs (R357). -/
def firstDim (f : Fabric) (dest : Nat) : Option Nat :=
  (List.range 3).find? (fun d => coordOf dest d ≠ coordOf f.cfg.id d)

/-- A link is a wrap link of its ring: between coordinates D − 1 and 0 (R358). -/
def isWrap (f : Fabric) (i : Nat) : Bool :=
  let d := i / 2
  if i % 2 = 0 then coordOf f.cfg.id d + 1 = f.cfg.size d else coordOf f.cfg.id d = 0

/-- First hop towards a module: its link (R357); 7 for the module itself. -/
def firstHop (f : Fabric) (dest : Nat) : Nat :=
  match firstDim f dest with
  | none => 7
  | some d => linkOf d (f.goesMinus d (coordOf dest d))

/-! ### Sending -/

/-- A link that exchanges data flits or, in QUARANTINE, those of VC 0 (R356). -/
def Link.carries (l : Link) : Bool := l.st = .up || l.st = .quarantine

/-- A link that exchanges flits: one that has trained, and whose ends exchange identities, among them (R351, R355). -/
def Link.talks (l : Link) : Bool := l.carries || (l.st = .training && l.width ≠ 0)

/-- Buffers of a class that each of VCs 1 to 5 has reserved (R350). -/
def classReserve (c : Nat) : Nat := if c < 2 then 64 else 32

/-- Buffers that a channel has in use in a class. -/
def Link.inUse (l : Link) (vc c : Nat) : Nat := ((SMap.get [] l.credits vc).filter (· = c)).length

/-- Shared buffers in use: those of VCs 1 to 5 beyond each class's reserve. -/
def Link.sharedUse (l : Link) : Nat :=
  ((List.range 5).map (fun v => ((List.range 5).map (fun c => l.inUse (v + 1) c - classReserve c)).foldl (· + ·) 0)).foldl (· + ·) 0

/-- Whether a credit for a flit is left (R350): 64 buffers for VC 0; for VCs 1 to 5 the class's reserve, then the 352
that they share. -/
def hasCredit (l : Link) (x : Flit) : Bool :=
  if x.vc = 0 then (SMap.get [] l.credits 0).length < 64
  else l.inUse x.vc x.bufClass < classReserve x.bufClass || l.sharedUse < 352

/-- Credits that a flit returns: those of the lowest virtual channel that is owed any, at most 63 (R347, R350). -/
def Link.creditBack (l : Link) : Nat × Nat :=
  match l.owed.find? (fun o => o.2 ≠ 0) with
  | some (vc, n) => (vc, min n 63)
  | none => (0, 0)

/-- Send a flit on a link: it takes the next sequence number, the link's ACK, the credits to return and a place in the
retry buffer (R347, R348, R350); idle flits take no credit. -/
def Link.transmit (l : Link) (x : Flit) : Link :=
  let b := l.creditBack
  let y := { x with seq := l.txSeq, ack := l.rxSeq, cvc := b.1, ccnt := b.2 }
  { l with
    txSeq := (l.txSeq + 1) % 4096
    retry := l.retry ++ [y]
    wire := l.wire ++ [y]
    owed := SMap.modify 0 l.owed b.1 (fun n => n - b.2)
    credits := if x.type = .idle then l.credits else SMap.modify [] l.credits x.vc (· ++ [x.bufClass]) }

/-- Weight of VC 1 to 5 in LATH_VCW; 0 is used as 1 (R31, R465). -/
def vcWeight (w vc : Nat) : Nat := max 1 (bits w (4 * vc - 1) (4 * vc - 4))

/-- The flit of a channel that has waited longest: each channel stays in order. -/
def Link.headOf (l : Link) (vc : Nat) : Option (Nat × Flit) := l.held.find? (fun y => y.2.vc = vc)

def Link.ready (l : Link) (vc : Nat) : Bool :=
  match l.headOf vc with
  | some y => hasCredit l y.2
  | none => false

/-- The channel served next and the turn after it (R31, R350): VC 0 before any other, then VCs 1 to 5 in weighted round
robin. -/
def Link.arbiter (l : Link) (w : Nat) : Option (Nat × Nat × Nat) :=
  if l.ready 0 then some (0, l.turn)
  else if 0 < l.turn.2 && l.ready l.turn.1 then some (l.turn.1, l.turn.1, l.turn.2 - 1)
  else (((List.range 5).map (fun k => (l.turn.1 + k) % 5 + 1)).find? l.ready).map (fun v => (v, v, vcWeight w v - 1))

/-- A receive buffer of a link frees: its credit goes back (R350). -/
def owe (f : Fabric) (i vc : Nat) : Fabric :=
  if i < 6 then f.setLink i { f.link i with owed := SMap.modify 0 (f.link i).owed vc (· + 1) } else f

/-- Send up to `n` held flits while credits and retry places last; a flit that has come in on another link frees its
buffer there. -/
def pump (w i : Nat) : Nat → Fabric → Fabric
  | 0, f => f
  | n + 1, f =>
    let l := f.link i
    match if l.talks && l.retry.length < 1024 then l.arbiter w else none with
    | none => f
    | some (v, turn) =>
      match l.headOf v with
      | none => f
      | some y => pump w i n (owe (f.setLink i ({ l with turn := turn, held := l.held.erase y }.transmit y.2)) y.1 v)

/-- LATH_VCW (R465). -/
def State.vcw (s : State) : Nat := s.dp.regWord 0 0x023030

/-- Send what a link holds. -/
def State.pumpLink (s : State) (i : Nat) : State := { s with fb := pump s.vcw i (s.fb.link i).held.length s.fb }

/-- Give a link a flit to send that came in on link `src` (6: this module's own). -/
def State.enqueue (s : State) (i src : Nat) (x : Flit) : State :=
  ({ s with fb := s.fb.setLink i { s.fb.link i with held := (s.fb.link i).held ++ [(src, x)] } }).pumpLink i

/-- Send a message of the link itself on VC 0 (R350). -/
def State.onLink (s : State) (i : Nat) (type : FlitType) (kind : String) (values : List Nat) : State :=
  s.enqueue i 6 (Flit.own type 0 (s.fb.link i).nbr s.fb.cfg.id (Config.packetBytes kind values []))

/-! ### Forwarding and detours -/

/-- The class bits of a packet that leaves on link `out` having come in on `inn` (R358): DHOP clears after the detour
hop (R360), which ends with class 3, a turn into another dimension returns to class 0 or 3, and a wrap link moves to
class 1 or 4. -/
def classFor (f : Fabric) (inn out : Nat) (x : Flit) : Flit :=
  let landed := x.detour && x.dhop
  let c := if landed || inn / 2 ≠ out / 2 then false else x.cls
  { x with dhop := false, cls := x.vc ≠ 0 && (c || isWrap f out) }

/-- A link that traffic may leave on. -/
def Fabric.isUp (f : Fabric) (i : Nat) : Bool := (f.link i).st = .up

/-- The detour for a link that is not UP (R360): the opposite way round the ring when that way is open here and the
ring is closed, or one hop in the next dimension. -/
def detourOf (f : Fabric) (i : Nat) : Option (Nat × Bool) :=
  let opp := if i % 2 = 0 then i + 1 else i - 1
  let d := (i / 2 + 1) % 3
  if f.isUp opp && (f.planned i).v && (f.planned opp).v then some (opp, false)
  else if f.isUp (linkOf d false) then some (linkOf d false, true)
  else if f.isUp (linkOf d true) then some (linkOf d true, true)
  else none

/-- Discard a packet and count it (R360). -/
def discardPacket (s : State) : State := { s with dp := s.dp.count 0x158 1 }

/-- Send a flit towards link `out`, by its detour when the link is not UP. -/
def routeOut (s : State) (inn out : Nat) (x : Flit) : State :=
  let f := s.fb
  if f.isUp out then s.enqueue out inn (classFor f inn out x)
  else if x.detour then discardPacket { s with fb := owe f inn x.vc }
  else match detourOf f out with
    | none => discardPacket { s with fb := owe f inn x.vc }
    | some (o, hop) =>
      s.enqueue o inn { x with detour := true, dhop := hop, cls := x.vc ≠ 0 && !hop && isWrap f o }

/-- The link that a flit leaves by (R357, R360): a detoured packet keeps its way round a ring until its coordinate
there is reached. -/
def outLink (f : Fabric) (inn : Nat) (x : Flit) : Nat :=
  let d := inn / 2
  if x.detour && !x.dhop && inn < 6 && coordOf x.dest d ≠ coordOf f.cfg.id d then
    (if inn % 2 = 0 then inn + 1 else inn - 1)
  else firstHop f x.dest

/-- A received packet flit: consumed here, or forwarded (R364). -/
def arrive (s : State) (i : Nat) (x : Flit) : State :=
  if x.dest = s.fb.cfg.id then { s with fb := owe s.fb i x.vc } else routeOut s i (outLink s.fb i x) x

/-- Give the links a message of this module's own (R357, R358, R360): its flits go towards their destination. A message to
the module itself takes no link. -/
def sendMsg (s : State) (m : FabMsg) : State :=
  if m.dest = s.fb.cfg.id then s
  else (m.flits s.fb.cfg.id).foldl (fun s x => routeOut s 6 (firstHop s.fb x.dest) x) s

/-- The links take the messages that wait for them, oldest first. -/
def State.inject (s : State) : State :=
  (s.dp.fabOut.drop s.fb.taken).foldl sendMsg { s with fb := { s.fb with taken := s.dp.fabOut.length } }

/-! ### Link failure -/

/-- Send the packets of a failed link again by its detour, in order, with the links that they came in on (R361). -/
def reroute (i : Nat) : List (Nat × Flit) → State → State
  | [], s => s
  | y :: r, s => reroute i r (if y.2.type = .data then routeOut s y.1 i y.2 else s)

/-- Plumb parent when the first hop is not UP: the UP neighbour of least depth that is ALIGNED and does not name this
module, lowest link first (R371). -/
def fallbackParent (f : Fabric) : Nat :=
  let ok := (List.range 6).filterMap (fun i => match (f.link i).peer with
    | some (d, a, p) => if f.isUp i && a && p ≠ f.cfg.id then some (d, i) else none
    | none => none)
  match ok with
  | [] => 7
  | x :: r => (r.foldl (fun b y => if y.1 < b.1 then y else b) x).2

/-- The parent link (R371). -/
def parentOf (f : Fabric) : Nat :=
  let h := firstHop f f.cfg.gm
  if h < 6 && f.isUp h then h else fallbackParent f

/-- Losing the parent link starts the holdover (R374). -/
def parentLost (f : Fabric) (i : Nat) : Fabric :=
  if !f.plumb.gm && f.plumb.parent = i then
    { f with plumb := { f.plumb with parent := fallbackParent f, source := if f.plumb.aligned then .holdover else f.plumb.source } }
  else f

/-- A link starts over: sequence numbers, credits and what it held (R348, R350). -/
def Link.fresh (l : Link) : Link :=
  { l with txSeq := 0, rxSeq := 4095, retry := [], held := [], credits := [], owed := [], replays := 0, rejecting := false,
           turn := (5, 0), offset := none, peer := none }

/-- A link leaves service: its detour is set, its retry buffer and then the waiting flits go by the detour (R349, R360,
R361), and the module reports it (R367). -/
def linkDown (s : State) (i : Nat) (st : LinkSt) : State :=
  let l := s.fb.link i
  let f := s.fb.setLink i { l.fresh with st := st, txSeq := l.txSeq, rxSeq := l.rxSeq }
  let f := f.setLink i { f.link i with detour := (detourOf f i).isSome }
  (reroute i (l.retry.map (fun x => (6, x)) ++ l.held) { s with fb := parentLost f i }).report

/-! ### Training and identity -/

/-- Whether the lanes of a group of `w` starting at `lo` are all good. -/
def lanesGood (m : U16) (lo w : Nat) : Bool := bits m.toNat (lo + w - 1) lo = 2 ^ w - 1

/-- Width code and lane group (R352). -/
def chooseWidth (m : U16) : Option (Nat × Nat) :=
  if lanesGood m 0 16 then some (3, 0)
  else if lanesGood m 0 8 then some (2, 0)
  else if lanesGood m 8 8 then some (2, 1)
  else ((List.range 4).find? (fun g => lanesGood m (4 * g) 4)).map (fun g => (1, g))

/-- Apply a training's outcome: width, FEC (Strong when either end asks, R346), asymmetry; ABSENT with no usable
group, which is MISSING when the plan names a neighbour (R352, R355). -/
def trainLink (f : Fabric) (fec : Nat) (i : Nat) (r : TrainResult) : Fabric :=
  let l := (f.link i).fresh
  match chooseWidth r.good with
  | some (w, g) => f.setLink i { l with st := .training, disc := 0, width := w, lgrp := g, strong := fec = 1 || r.peerStrong,
                                        asym := r.asym }
  | none => f.setLink i { l with st := .absent, disc := if (f.planned i).v then 2 else 0, width := 0, lgrp := 0 }

/-- A trained link sends this module's identity on VC 0 (R351, R355). -/
def sendIdentity (s : State) (i : Nat) : State :=
  let c := s.fb.cfg
  if (s.fb.link i).st = .training then
    s.onLink i .identity "identity" [c.id, i, s.mg.fuses.prov, c.dx, c.dy, c.dz]
  else s

/-- A link retrains: counted, and logged to the owner and the cell manager (R353). -/
def countRetrain (s : State) (i : Nat) : State :=
  { s with
    fb := s.fb.setLink i { s.fb.link i with retrains := satAdd 64 (s.fb.link i).retrains 1 }
    dp := (s.dp.ownerEvent evLinkRetrain 3 i 0 s.fb.plumb.ns i).send "retrain" s.fb.reportTo [i] [] }

/-- LINK_TRAINING: a link that trains, or that retrains after it went DOWN; one that fails to retrain stays DOWN until its
next try (R351, R353). -/
def execLinkTraining (i : Nat) (r : TrainResult) (s : State) : Out :=
  s.hub (fun s =>
    let l := s.fb.link i
    let again := l.st = .down || (l.st = .training && l.retrains ≠ 0 && l.width = 0)
    if i < 6 && (again || l.st = .training) then
      let s := if again then countRetrain s i else s
      let f := trainLink s.fb s.mg.sec.mode.fec i r
      let f := if again && (f.link i).st = .absent then f.setLink i { f.link i with st := .down } else f
      (sendIdentity { s with fb := f } i).report
    else s)

/-- Whether an identity is the one planned for a link, or the one that a RELEASE put in its place (R355, R356). -/
def identityMatches (f : Fabric) (i : Nat) (id : Identity) : Bool :=
  let p := f.cfg.planOf i
  match (f.link i).released with
  | some r => decide (id = r)
  | none => p.v && p.dev = id.dev && p.link = id.link && id.dx = f.cfg.dx && id.dy = f.cfg.dy && id.dz = f.cfg.dz

/-- Every planned link is MATCH. -/
def allMatched (f : Fabric) : Bool := (List.range 6).all (fun i => !(f.planned i).v || (f.link i).disc = 1)

/-- A READY_DEGRADED module whose links have all matched becomes READY and reports it (R434); DEGRADED shows the condition
whatever the state (R432). -/
def regainReady (s : State) : State :=
  if !allMatched s.fb || s.boot.phase ≠ 6 then s
  else
    let t := s.setBoot { s.boot with degradedBit := false }
    if s.boot.st = .degraded then t.enter .ready else t

/-- Class a link by an identity (R355): UP, or QUARANTINE with a report to the owner and the cell manager. The log entry's
ADDR holds the observed identity in the form of DEVID (R311, R476). -/
def classify (s : State) (i : Nat) (id : Identity) : State :=
  let l := { s.fb.link i with nbr := id.dev, rlink := id.link, observed := some id }
  if identityMatches s.fb i id then
    (regainReady { s with fb := s.fb.setLink i { l with st := .up, disc := 1, detour := false } }).report
  else
    let p := s.fb.planned i
    { s with
      fb := s.fb.setLink i { l with st := .quarantine, disc := if p.v then 4 else 3 }
      dp := (s.dp.ownerEvent evLinkMismatch 3 i (id.prov % 2 ^ 48 + id.dev % 2 ^ 15 * 2 ^ 48) s.fb.plumb.ns i).send "mismatch"
        s.fb.reportTo [i, p.dev, p.link, id.dev, id.link, id.prov, id.dx, id.dy, id.dz] [] }.report

/-- IDENTITY_FLIT (R355): on a link that has trained. -/
def execIdentityFlit (i : Nat) (id : Identity) (s : State) : Out :=
  s.hub (fun s => if i < 6 && (s.fb.link i).st = .training && (s.fb.link i).width ≠ 0 then classify s i id else s)

/-- RELEASE (R356): only the observed identity of a quarantined link is accepted. -/
def execRelease (i : Nat) (id : Identity) (s : State) : Out :=
  s.hub (fun s =>
    let l := s.fb.link i
    if i < 6 && l.st = .quarantine && l.observed = some id then
      (regainReady { s with fb := s.fb.setLink i { l with st := .up, disc := 1, released := some id, detour := false } }).report
    else s)

/-- LINK_RETRY_TIMER (R353, R434): a link that failed to train tries again. -/
def execLinkRetryTimer (i : Nat) (s : State) : Out :=
  s.hub (fun s =>
    let l := s.fb.link i
    if i < 6 && (s.fb.planned i).v && (l.st = .absent || l.st = .down) then
      { s with fb := s.fb.setLink i { l with st := .training, disc := 0, width := 0 } }
    else s)

/-! ### Flits -/

/-- Flits of a retry buffer that an ACK does not cover (R348): the buffer's numbers are consecutive. -/
def afterAck (retry : List Flit) (ack : Nat) : List Flit :=
  match retry with
  | [] => []
  | x :: _ =>
    let n := (ack + 4096 - x.seq) % 4096 + 1
    if n ≤ retry.length then retry.drop n else retry

/-- Apply a good flit's ACK and credits (R347, R348, R350), and send what they let go. -/
def takeAck (s : State) (i : Nat) (x : Flit) : State :=
  let l := s.fb.link i
  let kept := afterAck l.retry x.ack
  (s.setLink i { l with
    retry := kept
    replays := if kept.length < l.retry.length then 0 else l.replays
    rxSeq := x.seq
    rejecting := false
    credits := SMap.modify [] l.credits x.cvc (fun cs => cs.drop x.ccnt) }).pumpLink i

/-- A flit in sequence (R347): a data flit is consumed or forwarded, and any other but an idle one frees its buffer. A link
that is not UP takes only VC 0 flits to this module and forwards nothing (R356); in SAFE a link carries VC 0 only (R433).
What link control, exchange and identity flits say arrives in the commands of those names (log entry 75). -/
def deliver (s : State) (i : Nat) (x : Flit) : State :=
  let st := (s.fb.link i).st
  if x.type = .idle then s
  else if x.type = .data && ((st = .up && (s.mg.boot.st ≠ .safe || x.vc = 0)) || (x.vc = 0 && x.dest = s.fb.cfg.id)) then
    arrive s i x
  else { s with fb := owe s.fb i x.vc }

/-- FLIT_RECEIVE: CRC and sequence checks with a NAK (R347, R348), ACK and credits, then the flit itself. Later flits of
one gap get no further NAK. -/
def execFlitReceive (i : Nat) (bytes : List Byte) (s : State) : Out :=
  s.hub (fun s =>
    let l := s.fb.link i
    if i < 6 && l.talks then
      match Flit.receive bytes with
      | none => (s.setLink i { l with rejecting := true }).onLink i .control "nak" [l.rxSeq]
      | some x =>
        if x.seq = (l.rxSeq + 1) % 4096 then deliver (takeAck s i x) i x
        else if l.rejecting then s
        else (s.setLink i { l with rejecting := true }).onLink i .control "nak" [l.rxSeq]
    else s)

/-- LINK_NAK (R348, R349): the sender replays, in order, from the flit after the last good one, and sends newer flits only
then; eight consecutive replays without progress take the link DOWN. -/
def execLinkNak (i lastGood : Nat) (s : State) : Out :=
  s.hub (fun s =>
    let l := s.fb.link i
    if i < 6 && l.carries then
      let kept := afterAck l.retry lastGood
      let again := { l with retry := kept, wire := l.wire ++ kept }
      if kept.length < l.retry.length then (s.setLink i { again with replays := 1 }).pumpLink i
      else if 8 ≤ l.replays then linkDown s i .down
      else s.setLink i { again with replays := l.replays + 1 }
    else s)

/-- FRAME_LOCK_LOSS (R349). -/
def execFrameLockLoss (i : Nat) (s : State) : Out :=
  s.hub (fun s => if i < 6 && (s.fb.link i).carries then linkDown s i .down else s)

/-- ACK_TIMEOUT (R349). -/
def execAckTimeout (i : Nat) (s : State) : Out :=
  s.hub (fun s =>
    if i < 6 && (s.fb.link i).carries && !(s.fb.link i).retry.isEmpty then linkDown s i .down else s)

/-- IDLE_CREDIT_RETURN (R350): with nothing to send, owed credits go back in an idle flit, which takes a place in the retry
buffer as every flit does (R348). -/
def execIdleCreditReturn (i : Nat) (s : State) : Out :=
  s.hub (fun s =>
    let l := s.fb.link i
    if i < 6 && l.carries && l.held.isEmpty && l.creditBack.2 ≠ 0 && l.retry.length < 1024 then
      s.setLink i (l.transmit (Flit.own .idle 0 l.nbr s.fb.cfg.id []))
    else s)

/-! ### Management of links and routes -/

/-- ROUTE_REWRITE (R365): held with its Plumb time, earlier times first. -/
def execRouteRewrite (at_ : Nat) (rs : List RouteEntry) (s : State) : Out :=
  s.hub (fun s =>
    let w := s.fb.rewrites
    { s with fb := { s.fb with rewrites := w.filter (fun x => x.1 ≤ at_) ++ [(at_, rs)] ++ w.filter (fun x => at_ < x.1) } })

/-- LINK_DISABLE (R353, R367). -/
def execLinkDisable (i : Nat) (s : State) : Out :=
  s.hub (fun s => if i < 6 then linkDown s i .disabled else s)

/-! ### Managers -/

def roleCode : Role → Nat
  | .fabric => 0 | .cell => 1

/-- A module takes or gives back a role and tells every other module in its scope who holds it (R368). -/
def tellRole (s : State) (r : Role) (id : Nat) : State :=
  let c := s.fb.cfg
  let dp := s.dp.ownerEvent evManagerChange 1 0 0 s.fb.plumb.ns (roleCode r)
  { s with
    fb := s.fb.setAddr r id
    dp := ((roleScope c r).filter (· ≠ c.id)).foldl (fun dp m => dp.send "manager" m [roleCode r, id] []) dp }

/-- A member whose cell has a manager again (R368). ALERT_N stays until the sensors let it go (log entry 52). -/
def State.adopt (s : State) : State := if s.fb.orphan then { s with fb := { s.fb with orphan := false } }.report else s

/-- A member whose cell has lost its manager and its deputy reports straight to the fabric manager and raises ALERT_N
(R368), with the interrupt that goes with it (R452). -/
def State.orphaned (s : State) : State :=
  if s.fb.orphan then s
  else
    let s := { s with fb := { s.fb with orphan := true } }.setPins { s.mg.pins with alertN := true }
    { s with mg := s.mg.raiseIbi 1 }.report

/-- MANAGER_HEARTBEAT (R368). The configured manager sends it to its deputy; after 1,000 of them (10 s) a manager in
STANDBY has its role back. The deputy hears it, and an acting deputy hands the role back after 1,000. A member that
addresses the deputy, or no one, addresses the manager again after 1,000 (log entry 52). -/
def execManagerHeartbeat (r : Role) (s : State) : Out :=
  s.hub (fun s =>
    let c := s.fb.cfg
    let m := s.fb.role r
    let n := min (m.beats + 1) 1000
    let own := managerId c r
    if !c.valid then s
    else if own = c.id then
      let s := { s with dp := s.dp.send "heartbeat" (deputyId c r) [roleCode r] [] }
      if m.standby && n = 1000 then
        { s with fb := (s.fb.setRole r { m with standby := false, active := true, beats := 0 }).setAddr r own }
      else { s with fb := s.fb.setRole r { m with beats := n } }
    else if deputyId c r = c.id then
      if m.active && n = 1000 then
        tellRole { s with fb := s.fb.setRole r { m with active := false, deputy := true, misses := 0, beats := 0 } } r own
      else { s with fb := s.fb.setRole r { m with deputy := true, misses := 0, beats := n } }
    else if s.fb.addr r = own && !(r = .cell && s.fb.orphan) then s
    else if n = 1000 then
      let s := { s with fb := (s.fb.setRole r { m with beats := 0 }).setAddr r own }
      if r = .cell then s.adopt else s
    else { s with fb := s.fb.setRole r { m with beats := n } })

/-- HEARTBEAT_MISS (R368): the deputy has missed three consecutive heartbeats and takes the role. At another module in the
role's scope the manager is lost, and it addresses the deputy; when the deputy is lost too, a cell's module runs without
a manager (log entry 52). -/
def execHeartbeatMiss (r : Role) (s : State) : Out :=
  s.hub (fun s =>
    let c := s.fb.cfg
    let m := s.fb.role r
    if !c.valid || managerId c r = c.id then s
    else if deputyId c r = c.id then
      let s := { s with fb := s.fb.setRole r { m with active := true, deputy := true, misses := 3, beats := 0 } }
      if m.active then s else tellRole s r c.id
    else
      let s := { s with fb := s.fb.setRole r { m with beats := 0 } }
      if s.fb.addr r ≠ deputyId c r then { s with fb := s.fb.setAddr r (deputyId c r) }
      else if r = .cell then s.orphaned else s)

/-- MANAGER_REPORT (R367): a module's report reaches a manager. -/
def execManagerReport (r : Report) (s : State) : Out := s.hub (fun s => takeReport s r)

end Sys2Proof.Machine
end

