-- ==== Sys2Proof/Machine/PowerShape.lean ====
section
/-! DEFINITION. Power shaping (R376, R377) and the arithmetic clock (R36, R37). Powers are in W and times in ns. -/

namespace Sys2Proof.Machine

/-- PSHAPE_CTL.EN and HOLD in ms, HOLD above 1,000 taken as 1,000 (R378). -/
def shapeOn (dp : DataPlane) : Bool := bit (dp.regWord 0 0x023024) 0
def shapeHold (dp : DataPlane) : Nat := min (bits (dp.regWord 0 0x023024) 31 16) 1000

/-- PSHAPE_RATE.RISE and FALL in W per ms, clamped to 100 to 10,000 (R378). -/
def shapeRise (dp : DataPlane) : Nat := max 100 (min (bits (dp.regWord 0 0x023028) 29 16) 10000)
def shapeFall (dp : DataPlane) : Nat := max 100 (min (bits (dp.regWord 0 0x023028) 13 0) 10000)

/-- Target of a timed launch (R376): the mean power of the last launch with its program tag, or the power cap when
there is none; filler stays within the cap (R377). -/
def rampTarget (sh : Shape) (pcap : Nat) (l : Launch) : Nat :=
  match sh.lastPower.find? (fun x => x.1 = (l.program, l.build)) with
  | some x => min x.2 pcap
  | none => pcap

/-- Nanoseconds that a ramp of `w` watts takes at `rate` W per ms. -/
def rampNs (w rate : Nat) : Nat := ceilDiv (w * 1000000) rate

/-- Filler energy in µJ of a linear ramp over `w` watts: half the power times the time. -/
def rampEnergy (w rate : Nat) : Nat := w * w * 1000 / (2 * rate)

/-- POWER_RAMP_START (R376): for a timed launch that has not started, at T − (target − draw) ÷ RISE or later; the
ramp rises to the target by T, and its filler's energy is counted (R377). -/
def execPowerRampStart (q seq drawW : Nat) (s : State) : Out :=
  s.hub (fun s =>
    match s.dp.launches.find? (fun l => l.q = q && l.seq = seq) with
    | none => s
    | some l =>
      let target := rampTarget s.fb.shape s.mg.sec.mode.pcap l
      let rise := shapeRise s.dp
      let gap := target - drawW
      if shapeOn s.dp && l.timed && s.fb.plumb.ns < l.notBefore && l.notBefore ≤ s.fb.plumb.ns + rampNs gap rise &&
          0 < gap then
        { s with
          fb := { s.fb with shape := { s.fb.shape with ramp := some (l.notBefore, target, rise), draw := drawW,
                                                       filler := gap, held := none } }
          dp := s.dp.count 0x148 (rampEnergy gap rise) }
      else s)

/-- The timed launch that starts soonest within HOLD of now (R377). -/
def heldLaunch (dp : DataPlane) (now : Nat) : Option Nat :=
  (dp.launches.filterMap (fun l =>
    if l.timed && l.notBefore ≥ now && l.notBefore ≤ now + shapeHold dp * 1000000 then some l.notBefore else none)).min?

/-- The level that the controller was holding: the ramp's target, or the last draw with its filler. -/
def Shape.level (sh : Shape) : Nat :=
  match sh.ramp with
  | some (_, t, _) => t
  | none => sh.draw + sh.filler

/-- FILLER_RELEASE (R377): draw has fallen to `drawW`; filler holds the fall and is released at FALL, or holds level
until a timed launch within HOLD. -/
def execFillerRelease (drawW : Nat) (s : State) : Out :=
  s.hub (fun s =>
    let sh := s.fb.shape
    let fall := min sh.level s.mg.sec.mode.pcap - drawW
    if shapeOn s.dp && 0 < fall then
      let h := heldLaunch s.dp s.fb.plumb.ns
      let e := match h with
        | some t => fall * (t - s.fb.plumb.ns) / 1000
        | none => rampEnergy fall (shapeFall s.dp)
      { s with fb := { s.fb with shape := { sh with ramp := none, draw := drawW, filler := fall, held := h } }
               dp := s.dp.count 0x148 e }
    else s)

/-- A mode write starts a glide, or retargets the one that runs (R37). -/
def Shape.glideTo (sh : Shape) (mhz : Nat) : Shape := { sh with clockTarget := mhz, gliding := true }

/-- CLOCK_GLIDE_END (R37). -/
def execClockGlideEnd (s : State) : Out :=
  s.hub (fun s =>
    let sh := s.fb.shape
    if sh.gliding then { s with fb := { s.fb with shape := { sh with clockRun := sh.clockTarget, gliding := false } } } else s)

/-- What the ramp gives real work at a time: it rises at RISE to its target at T (R376). -/
def rampLevel (sh : Shape) (now : Nat) : Option Nat := sh.ramp.map (fun r => r.2.1 - (r.1 - now) * r.2.2 / 1000000)

/-- From T on the ramp's filler gives way to the work that draws power (R376). -/
def Shape.drawn (sh : Shape) (now drawW : Nat) : Shape :=
  match sh.ramp with
  | some (t, target, _) => if t ≤ now then { sh with draw := drawW, filler := target - drawW } else sh
  | none => sh

/-- A sensor's reading, by PLDM sensor ID (R457). -/
def Mgmt.reading (m : Mgmt) (i : Nat) (v : Int) : Mgmt := { m with sensors := SMap.set 0 m.sensors i v }

/-- POWER_CAP_HOLD (R36, R376): measured draw above the cap, or above what a ramp gives it, holds the clock at a lower
frequency, never above the selected mode's; draw within both releases it. -/
def execPowerCapHold (drawW mhz : Nat) (s : State) : Out :=
  s.hub (fun s =>
    let s := { s with mg := s.mg.reading 3 drawW }
    let sh := s.fb.shape.drawn s.fb.plumb.ns drawW
    if s.mg.sec.mode.pcap < drawW || (rampLevel sh s.fb.plumb.ns).any (· < drawW) then
      { s with fb := { s.fb with shape := { sh with clockRun := min mhz sh.clockTarget } } }
    else if sh.gliding then { s with fb := { s.fb with shape := sh } }
    else { s with fb := { s.fb with shape := { sh with clockRun := sh.clockTarget } } })

end Sys2Proof.Machine
end

