-- ==== Sys2Proof/Machine/Power.lean ====
section
/-! DEFINITION. The whole-module reset (R2, R3, R407, R409), the 54 V feed and the input controller (R483, R489, R490),
MOD_RESET_N (R491), event priority (R493) and thermal limits (R495, R496). -/

namespace Sys2Proof.Machine

/-! ### Reset -/

/-- A whole-module reset (R2, R407): everything is as after reset except fuses, flash, the carrier's pins, the sensor
readings and the commands that wait. Host memory and other modules' memory lie outside the module and keep what they
hold (log entry 2), and the model's free-value counter goes on (log entry 3). -/
def State.wholeReset (s : State) (st : BootSt) : State :=
  { dp := { DataPlane.reset with
      mem := { MemSys.reset with
        host := s.dp.mem.host, hostEp := s.dp.mem.hostEp, hostRefused := s.dp.mem.hostRefused,
        far := s.dp.mem.far, farRefused := s.dp.mem.farRefused }
      free := s.dp.free, pcieDown := s.mg.pins.perstN }
    fb := Fabric.reset
    mg := { s.mg with
      boot := { Boot.init with st := st }
      sec := Security.reset
      bus := Bus.reset
      pins := { s.mg.pins with alertN := false, faultN := false } }
    pending := s.pending }

/-- Bring-up starts, or is held while MOD_RESET_N stays asserted (R493). -/
def State.restart (s : State) : State := s.wholeReset (if s.mg.pins.modResetN then .off else .primer)

/-- Power is lost: PWR_GOOD falls, the switch opens and all state goes (R407, R490). -/
def State.powerLoss (s : State) : State :=
  let s := s.wholeReset .off
  { s with mg := { s.mg with pins := { s.mg.pins with pwrGood := false, switchOn := false } } }


/-! ### The input controller -/

/-- VIN at or above the switch-on threshold and not over voltage (R483). -/
def vinOk (mv : Nat) : Bool := 46000 ≤ mv && mv ≤ 62000

/-- Try to close the switch (R489, R490, R496): not during the re-assertion hold or a trip. -/
def Pins.closeSwitch (p : Pins) : Pins :=
  if p.thermTripN then p
  else if p.hold then { p with heldEn := true }
  else if vinOk p.vinMv then { p with switchOn := true }
  else p

/-- PWR_EN_ASSERT (R489). -/
def execPwrEnAssert (s : State) : Out :=
  let p := s.mg.pins
  if p.pwrEn then .next s
  else .next (s.setPins { p with pwrEn := true, railFail := false }.closeSwitch)

/-- PWR_GOOD_ASSERT (R407, R489): the rails are up and bring-up starts; a rail that fails its check opens the switch,
and there is no retry. -/
def execPwrGoodAssert (railsOk : Bool) (s : State) : Out :=
  let p := s.mg.pins
  if p.switchOn && !p.pwrGood then
    if railsOk then .next (s.setPins { p with pwrGood := true }).restart
    else .next (s.setPins { p with switchOn := false, railFail := true })
  else .next s

/-- PWR_EN_DEASSERT (R490). -/
def execPwrEnDeassert (s : State) : Out :=
  if s.mg.pins.pwrEn then
    let s := s.powerLoss
    .next (s.setPins { s.mg.pins with pwrEn := false, hold := true, heldEn := false, railFail := false })
  else .next s

/-- PWR_EN_HOLD_EXPIRY (R490): an assertion that was held goes on. -/
def execPwrEnHoldExpiry (s : State) : Out :=
  let p := s.mg.pins
  if p.hold then
    let q := { p with hold := false, heldEn := false }
    .next (s.setPins (if p.heldEn && p.pwrEn then q.closeSwitch else q))
  else .next s

/-- VIN_UNDERVOLTAGE (R483, R490): below 44 V. -/
def execVinUndervoltage (mv : Nat) (s : State) : Out :=
  if mv < 44000 && 44000 ≤ s.mg.pins.vinMv then
    let s := s.powerLoss
    .next (s.setPins { s.mg.pins with vinMv := mv })
  else .next s

/-- VIN_OVERVOLTAGE (R483): above 62 V. -/
def execVinOvervoltage (mv : Nat) (s : State) : Out :=
  if 62000 < mv then
    let s := s.powerLoss
    .next (s.setPins { s.mg.pins with vinMv := mv })
  else .next s

/-- SWITCH_ON_THRESHOLD (R489): VIN rises to 46 V while PWR_EN is held asserted with the switch open. -/
def execSwitchOnThreshold (mv : Nat) (s : State) : Out :=
  let p := s.mg.pins
  if p.vinMv < 46000 && vinOk mv then
    let q := { p with vinMv := mv }
    .next (s.setPins (if p.pwrEn && !p.switchOn && !p.railFail then q.closeSwitch else q))
  else .next s

/-- INPUT_CONTROLLER_POWER_OFF (R3, R483): below 30 V the controller's latches and its hold clear. -/
def execInputControllerPowerOff (s : State) : Out :=
  let s := s.powerLoss
  let p := s.mg.pins
  .next (s.setPins { p with vinMv := min p.vinMv 29999, thermTripN := false, hold := false, heldEn := false, railFail := false })

/-! ### MOD_RESET_N -/

/-- MOD_RESET_N_ASSERT (R491): a low of 1 µs or longer; without PWR_GOOD only the pin's level counts (R493). -/
def execModResetNAssert (ns : Nat) (s : State) : Out :=
  if 1000 ≤ ns then
    let s := s.setPins { s.mg.pins with modResetN := true }
    .next (if s.mg.pins.pwrGood then s.wholeReset .off else s)
  else .next s

/-- MOD_RESET_N_DEASSERT (R407): bring-up starts. -/
def execModResetNDeassert (s : State) : Out :=
  if s.mg.pins.modResetN then
    let s := s.setPins { s.mg.pins with modResetN := false }
    .next (if s.mg.pins.pwrGood then s.restart else s)
  else .next s

/-! ### Thermal -/

/-- Kinds of temperature sensors by PLDM ID (R457): 4 to 6 dies, 7 to 22 HBM stacks, 23 the cold plate. -/
def isDie (i : Nat) : Bool := 4 ≤ i && i ≤ 6
def isHbm (i : Nat) : Bool := 7 ≤ i && i ≤ 22

/-- Thresholds of R495 in 0.01 °C. -/
def alertLimit (i : Nat) : Option Int :=
  if isDie i then some 9500 else if isHbm i then some 9000 else if i = 23 then some 6000 else none
def throttleLimit (i : Nat) : Option Int := if isDie i then some 10000 else if isHbm i then some 9500 else none
def tripLimit (i : Nat) : Option Int := if isDie i then some 11500 else if isHbm i then some 10500 else none

def thermalIds : List Nat := (List.range 20).map (· + 4)

/-- Every temperature is below its limit by at least a margin. -/
def allBelow (sensors : SMap Int) (limit : Nat → Option Int) (margin : Int) : Bool :=
  thermalIds.all (fun i => match limit i with
    | some l => decide (SMap.get 0 sensors i + margin ≤ l)
    | none => true)

/-- THERMAL_ALERT (R495): ALERT_N asserts above a threshold, with an in-band interrupt, and stays until every reading
is below its threshold by 5 °C, and while the module's cell has no manager (R368). -/
def execThermalAlert (sensor : Nat) (centiC : Int) (s : State) : Out :=
  s.hub (fun s =>
    match alertLimit sensor with
    | none => s
    | some l =>
      let m := s.mg.reading sensor centiC
      if l < centiC then
        { s with mg := ({ m with pins := { m.pins with alertN := true } }).raiseIbi 1 }
      else if allBelow m.sensors alertLimit 500 then { s with mg := { m with pins := { m.pins with alertN := s.fb.orphan } } }
      else { s with mg := m })

/-- THERMAL_THROTTLE (R36, R495): above the limit the clock is held lower, at a frequency the spec leaves open; it is
released when every reading is back at its limit. -/
def execThermalThrottle (sensor : Nat) (centiC : Int) (s : State) : Out :=
  s.hub (fun s =>
    match throttleLimit sensor with
    | none => s
    | some l =>
      let s := { s with mg := s.mg.reading sensor centiC }
      let sh := s.fb.shape
      if l < centiC then
        { s with fb := { s.fb with shape := { sh with clockRun := min sh.clockRun (Config.heldClock s.dp.free) } }
                 dp := { s.dp with free := s.dp.free + 1 } }
      else if allBelow s.mg.sensors throttleLimit 0 && !sh.gliding then
        { s with fb := { s.fb with shape := { sh with clockRun := sh.clockTarget } } }
      else s)

/-- THERMAL_TRIP (R495, R496): comparators act in hardware, in any state with power. -/
def execThermalTrip (sensor : Nat) (centiC : Int) (s : State) : Out :=
  match tripLimit sensor with
  | none => .next s
  | some l =>
    if l < centiC && s.mg.pins.pwrGood then
      let s := { s with mg := s.mg.reading sensor centiC }.powerLoss
      .next (s.setPins { s.mg.pins with thermTripN := true })
    else .next s

/-- THERM_TRIP_RELEASE (R496): PWR_EN has been low for 100 ms. -/
def execThermTripRelease (s : State) : Out :=
  let p := s.mg.pins
  if p.thermTripN && !p.pwrEn then .next (s.setPins { p with thermTripN := false }) else .next s

/-- DEFERRED_RESET (R407, R439): 10 ms after an acknowledged RESET or life-cycle transition. -/
def execDeferredReset (s : State) : Out := if s.mg.sec.resetDue then .next s.restart else .next s

end Sys2Proof.Machine
end

