-- ==== Sys2Proof/Machine/Image.lean ====
section
/-! DEFINITION. The flash image (R413 to R416, R443, R474): its header, digests, signatures and rollback, and the CONFIG
section. -/

namespace Sys2Proof.Machine

def imageBase : Nat := 0x400000
def imageMax : Nat := 130023424

/-- A field of a byte string. -/
def part (b : List Byte) (off n : Nat) : List Byte := (b.drop off).take n
def partNat (b : List Byte) (off n : Nat) : Nat := leNat (part b off n)

/-- A section entry of the header (R414). -/
structure Sect where
  type : Nat
  off : Nat
  len : Nat
  digest : List Byte
  rsv : Nat

def sectAt (h : List Byte) (k : Nat) : Sect :=
  let o := 0x20 + 48 * k
  ⟨partNat h o 2, partNat h (o + 4) 4, partNat h (o + 8) 4, part h (o + 16) 32, partNat h (o + 2) 2 + partNat h (o + 12) 4⟩

def sects (h : List Byte) : List Sect := (List.range 4).map (sectAt h)

/-- The section of a type. -/
def sectOf (img : List Byte) (type : Nat) : List Byte :=
  match (sects img).find? (fun s => s.type = type) with
  | some s => part img s.off s.len
  | none => []

/-- The header is well formed (R414): NSEC is 4, each type 1 to 4 appears once, and sections lie within the image ahead
of its signature. -/
def headerOk (h : List Byte) : Bool :=
  partNat h 0 4 = 0x4B56494D && partNat h 4 2 = 1 && partNat h 6 2 = 4 && partNat h 0x14 12 = 0 &&
  0xE0 + 1280 ≤ partNat h 8 8 && partNat h 8 8 ≤ imageMax &&
  [1, 2, 3, 4].all (fun t => ((sects h).filter (fun s => s.type = t)).length = 1) &&
  (sects h).all (fun s => s.rsv = 0 && 0xE0 ≤ s.off && s.off + s.len + 1280 ≤ partNat h 8 8)

/-- A section that ends in a root signature over the rest of it (R443). -/
def rootSigned (rootKey sec : List Byte) : Bool :=
  1280 ≤ sec.length &&
  Config.falconVerify rootKey (sec.take (sec.length - 1280)) (sec.drop (sec.length - 1280))

/-- The active owner slot (R440, R442). -/
def activeOwner (f : Fuses) : Option (List Byte) := f.owners.getLast?

/-- The image signature under a key. -/
def imageSigned (key img : List Byte) : Bool :=
  Config.falconVerify key (img.take (img.length - 1280)) (img.drop (img.length - 1280))

/-- The signer that the life-cycle state accepts (R437, R443). -/
def signerOk (m : Mgmt) (img : List Byte) : Bool :=
  let rootOk := shake32 m.regions.rootKey = m.fuses.rootHash && imageSigned m.regions.rootKey img
  let key := part (sectOf img 1) 0 1793
  let ownerOk := activeOwner m.fuses = some (shake32 key) && imageSigned key img
  match m.fuses.lcs with
  | .blank => false
  | .test => rootOk
  | .provisioned => if m.fuses.owners = [] then rootOk else ownerOk
  | .fieldReturn => ownerOk || rootOk
  | .retired => false

/-- The image in flash, when its header is well formed. -/
def flashImage (m : Mgmt) : Option (List Byte) :=
  let h := readBytes m.flash imageBase 0xE0
  if headerOk h then some (readBytes m.flash imageBase (partNat h 8 8)) else none

/-- The checks of R415 and R443, in order; the verified image. -/
def verifyImage (m : Mgmt) : Option (List Byte) := do
  let img ← flashImage m
  let rb := partNat img 0x10 4
  if (sects img).all (fun s => shake32 (part img s.off s.len) = s.digest) && rb ≤ 64 && m.fuses.rollback ≤ rb &&
      shake32 m.regions.rootKey = m.fuses.rootHash &&
      [2, 3, 4].all (fun t => rootSigned m.regions.rootKey (sectOf img t)) && signerOk m img then some img else none

/-- A planned neighbour (R474). -/
def planWord (w : Nat) : PlanEntry := ⟨bit w 31, bits w 14 0, bits w 17 15⟩
def planWordOk (w : Nat) : Bool := if bit w 31 then bits w 30 18 = 0 && bits w 17 15 ≤ 5 else w = 0

/-- Fabric fields of CONFIG (R354, R474). -/
def configFab (c : List Byte) : FabCfg :=
  { valid := true, id := partNat c 0x808 2, dx := partNat c 0x80A 1, dy := partNat c 0x80B 1, dz := partNat c 0x80C 1,
    plan := (List.range 6).map (fun i => planWord (partNat c (0x810 + 4 * i) 4)),
    gm := partNat c 0x828 2, gmDep := partNat c 0x82A 2, fm := partNat c 0x82C 2, fmDep := partNat c 0x82E 2,
    cm := partNat c 0x830 2, cmDep := partNat c 0x832 2, feed := partNat c 0x80E 2,
    fabTimeout := if partNat c 0x834 4 = 0 then 2000 else partNat c 0x834 4,
    spares := (List.range (partNat c 0x848 2)).map (fun i => partNat c (0x850 + 2 * i) 2), carve := partNat c 0x80D 1 }

/-- Mode defaults of CONFIG (R453, R474). -/
def configMode (c : List Byte) : ModeTab :=
  ⟨partNat c 0x838 1, partNat c 0x83E 2, partNat c 0x839 1, partNat c 0x83A 1, partNat c 0x83B 1, partNat c 0x83C 1,
   partNat c 0x840 4, partNat c 0x844 4⟩

/-- Values and pairs of the mode table that R453 allows. -/
def modeOk (t : ModeTab) : Bool :=
  t.clock ≤ 2 && 1200 ≤ t.pcap && t.pcap ≤ 3200 && t.pcap % 25 = 0 && t.ecc ≤ 1 && t.fec ≤ 1 &&
  6 ≤ t.rmin && t.rmin ≤ t.rmax && t.rmax ≤ 12 && 1 ≤ t.tmin && t.tmin ≤ t.tmax && t.tmax ≤ 86400

/-- CONFIG holds no reserved or inconsistent value (R416, R474). -/
def configOk (c : List Byte) : Bool :=
  let f := configFab c
  0xA50 ≤ c.length && 1 ≤ f.dx && f.dx ≤ 32 && 1 ≤ f.dy && f.dy ≤ 32 && 1 ≤ f.dz && f.dz ≤ 32 &&
  [f.id, f.gm, f.gmDep, f.fm, f.fmDep, f.cm, f.cmDep].all (fun i => i < 0x8000 && idInSystem f i) &&
  f.carve ≤ 32 && (List.range 6).all (fun i => planWordOk (partNat c (0x810 + 4 * i) 4)) &&
  f.plan.all (fun p => !p.v || idInSystem f p.dev) &&
  (partNat c 0x834 4 = 0 || (100 ≤ f.fabTimeout && f.fabTimeout ≤ 50000)) && modeOk (configMode c) &&
  partNat c 0x83D 1 = 0 && partNat c 0x848 2 ≤ 256 && partNat c 0x84A 6 = 0 && f.spares.all (idInSystem f) &&
  leNat (c.drop 0xA50) = 0

end Sys2Proof.Machine
end

