-- ==== Sys2Proof/Machine/Cores.lean ====
section
/-! DEFINITION. The Fyrath cores' shared operations: fetch and retirement (R179 to R181), the private memory and the
control registers (R183, R503), loads, stores and atomics with their checks (R211 to R213, R221, R238, R246, R254,
R255), and ordering (R256, R259). -/

namespace Sys2Proof.Machine

/-! ### Running cores -/

def privBase : Nat := 0x070000000000

def coreIsHub : CoreId → Bool
  | .hub _ => true
  | .tile _ _ => false

/-- The core exists and its unit runs programs: a hub core, or a core of an enabled tile that runs a launch. -/
def coreActive (dp : DataPlane) : CoreId → Bool
  | .tile t i => i < 8 && dp.enabled t && (dp.tile t).phase = .running
  | .hub h => h < 64

/-- Instruction memory in bytes, firmware and program regions together (R183). -/
def imemSize : CoreId → Nat
  | .tile _ _ => 0xC000
  | .hub _ => 0x20000

/-- The fetch address lies in instruction memory, 4-byte aligned (R180, R181). -/
def fetchOk (c : CoreId) (pc : Nat) : Bool := privBase ≤ pc && pc + 4 ≤ privBase + imemSize c && pc % 4 = 0

/-- The word at the program counter, little-endian (R180). -/
def fetchWord (k : Core) : Nat := readNat k.mem (k.pc - privBase) 4

/-- Major opcode of a word, bits [31:26] (R180). -/
def wordMajor (w : Nat) : Nat := bits w 31 26

/-- Major opcodes that R180 lists; the others are reserved. -/
def majorListed (m : Nat) : Bool := (1 ≤ m && m ≤ 0x0A) || (0x10 ≤ m && m ≤ 0x13)

/-- The stream of a core; 8 for a hub core (R182). -/
def coreStream : CoreId → Nat
  | .tile _ i => i
  | .hub _ => 8

/-- The engine that ISSUE names on a stream, with ENG above what the stream allows undefined (R185). -/
def issueEngine (stream eng : Nat) : Option Nat :=
  if stream = 7 then (if eng ≤ 1 then some (7 + eng) else none) else if eng = 0 then some stream else none

/-- Widths an atomic operation allows; 0x0C and above are no operation (R254). -/
def atomicWidthOk (op : Nat) (w64 : Bool) : Bool := op < 0x0A || op = 0x0B || (op = 0x0A && !w64)

/-- A word that is an instruction as far as the spec places its fields: a listed major opcode, a BRANCH condition up to 5
(R180), an atomic of R254, a FENCE kind other than 0 (R259), an ISSUE of R185. -/
def wordDefined (c : CoreId) (w : Nat) : Bool :=
  majorListed (wordMajor w) &&
  (wordMajor w ≠ 0x06 || bits w 15 13 ≤ 5) &&
  (wordMajor w ≠ 0x08 || atomicWidthOk (bits w 9 4) (bit w 10)) &&
  (wordMajor w ≠ 0x09 || bits w 1 0 ≠ 0) &&
  (wordMajor w ≠ 0x10 || (bits w 15 11 = 0 && (issueEngine (coreStream c) (bits w 2 0)).isSome))

/-! ### Words

What the spec places of each instruction's word (R180, R185, R254, R259); places that it does not give are not compared
(log entry 10). -/

/-- A word of a major opcode, no more of it being placed. -/
def isMajor (m w : Nat) : Bool := wordMajor w = m

/-- Register form: rd at [25:21], rs1 at [20:16], rs2 at [15:11] (R180). -/
def regFields (rd rs1 rs2 : Reg) (w : Nat) : Bool :=
  bits w 25 21 = rd.val && bits w 20 16 = rs1.val && bits w 15 11 = rs2.val

/-- ALU, register form. -/
def isAlu (rd rs1 rs2 : Reg) (w : Nat) : Bool := isMajor 0x01 w && regFields rd rs1 rs2 w

/-- Immediate form: the immediate at [15:0] (R180). -/
def isImmediate (m : Nat) (imm : U16) (w : Nat) : Bool := isMajor m w && bits w 15 0 = imm.toNat

/-- The same with rd at [25:21] and rs1 at [20:16]. -/
def isRegImmediate (m : Nat) (rd rs1 : Reg) (imm : U16) (w : Nat) : Bool :=
  isImmediate m imm w && bits w 25 21 = rd.val && bits w 20 16 = rs1.val

/-- A word that writes `rd`, at [25:21] (R180). -/
def writesReg (m : Nat) (rd : Reg) (w : Nat) : Bool := isMajor m w && bits w 25 21 = rd.val

/-- LOAD: rd at [25:21], width at [10:9], VOLATILE at [8], SIGN at [7] (R180); width codes 0 to 3 stand for 1, 2, 4 and 8
bytes (log entry 10). -/
def isLoad (width : Nat) (vol sgn : Bool) (rd : Reg) (w : Nat) : Bool :=
  writesReg 0x04 rd w && 2 ^ bits w 10 9 = width && bit w 8 = vol && bit w 7 = sgn

/-- BRANCH: rs1 at [25:21], rs2 at [20:16], condition at [15:13], word offset at [12:0] (R180). -/
def isBranch (cond : BitVec 3) (rs1 rs2 : Reg) (off : BitVec 13) (w : Nat) : Bool :=
  isMajor 0x06 w && bits w 25 21 = rs1.val && bits w 20 16 = rs2.val && bits w 15 13 = cond.toNat &&
  bits w 12 0 = off.toNat

/-- Scope codes (R180, R259). -/
def scopeCode : Scope → Nat
  | .tile => 0
  | .die => 1
  | .device => 2
  | .system => 3

/-- Order codes of an atomic (R254). -/
def orderCode : MemOrder → Nat
  | .relaxed => 0
  | .acquire => 1
  | .release => 2
  | .acqRel => 3

/-- An atomic: register form with W at [10], OP at [9:4], scope at [3:2], order at [1:0] (R254). -/
def isAtomic (op : Nat) (x : AtomicArgs) (w : Nat) : Bool :=
  isMajor 0x08 w && regFields x.rd x.rs1 x.rs2 w && bit w 10 = x.w64 && bits w 9 4 = op &&
  bits w 3 2 = scopeCode x.scope && bits w 1 0 = orderCode x.order

/-- FENCE: scope at [3:2], kind at [1:0], 1 acquire, 2 release, 3 full (R259). -/
def isFence (kind : Nat) (sc : Scope) (w : Nat) : Bool :=
  isMajor 0x09 w && bits w 3 2 = scopeCode sc && bits w 1 0 = kind

/-- ISSUE: rs1 at [25:21], rs2 at [20:16], [15:11], OP at [10:3], ENG at [2:0] (R185). -/
def isIssue (rs1 rs2 : Reg) (res : BitVec 5) (op : BitVec 8) (eng : BitVec 3) (w : Nat) : Bool :=
  isMajor 0x10 w && bits w 25 21 = rs1.val && bits w 20 16 = rs2.val && bits w 15 11 = res.toNat &&
  bits w 10 3 = op.toNat && bits w 2 0 = eng.toNat

/-- What a core instruction does: the data plane after it, or a core fault with TRAP's code. -/
inductive CoreEnd where
  | done (dp : DataPlane)
  | fault (f : EFault) (detail : Nat)

def illegal : CoreEnd := .fault (EFault.plain stCoreIllegal) 0

/-- Run one instruction on a running core: the core fetches at its program counter; a fetch outside instruction memory or
an undefined word faults it (R181), and a word that does not spell this command is another instruction, so nothing happens
(log entry 1). -/
def coreRun (env : Env) (dp : DataPlane) (c : CoreId) (spells : Nat → Bool) (f : Core → CoreEnd) : DataPlane :=
  let k := dp.core c
  if coreActive dp c && k.st = .running then
    if fetchOk c k.pc && wordDefined c (fetchWord k) then
      if spells (fetchWord k) then
        match f k with
        | .done dp => dp
        | .fault e d => coreFault env dp c e d
      else dp
    else coreFault env dp c (EFault.plain stCoreIllegal) 0
  else dp

/-- Retire: the program counter moves on and the watchdog restarts (R206). -/
def Core.retireTo (plumb pc : Nat) (k : Core) : Core := { k with pc := pc, st := .running, wdStart := plumb }

/-- Retire to the next word. -/
def Core.retire (plumb : Nat) (k : Core) : Core := k.retireTo plumb (k.pc + 4)

/-- Retire a core that has written register `rd`. -/
def DataPlane.retireReg (dp : DataPlane) (plumb : Nat) (c : CoreId) (rd : Reg) (v : U64) : DataPlane :=
  dp.setCore c (((dp.core c).setReg rd v).retire plumb)

/-- Retire without a register write. -/
def DataPlane.retireOnly (dp : DataPlane) (plumb : Nat) (c : CoreId) : DataPlane :=
  dp.setCore c ((dp.core c).retire plumb)

/-- A word of which the spec gives only the low 32 bits: the upper half is a free value. -/
def halfFree (k lo : Nat) : U64 := BitVec.ofNat 64 (bits (Config.freeWord k).toNat 63 32 * 2 ^ 32 + lo % 2 ^ 32)

/-- Retire with a 32-bit result. -/
def DataPlane.retireLow (dp : DataPlane) (plumb : Nat) (c : CoreId) (rd : Reg) (lo : Nat) : DataPlane :=
  { dp.retireReg plumb c rd (halfFree dp.free lo) with free := dp.free + 1 }

/-! ### The private memory -/

/-- The regions of R183. -/
inductive PrivRegion where
  | fixed
  | data
  | ctl (off : Nat)
  | alias_ (off : Nat)
  | none
deriving DecidableEq, Repr

def privRegion (c : CoreId) (off : Nat) : PrivRegion :=
  match c with
  | .tile _ _ =>
    if off < 0xC000 then .fixed
    else if 0x10000 ≤ off && off < 0x10100 then .fixed
    else if 0x10100 ≤ off && off < 0x14000 then .data
    else if 0x20000 ≤ off && off < 0x21000 then .ctl (off - 0x20000)
    else if 0x10000000 ≤ off && off < 0x10400000 then .alias_ (off - 0x10000000)
    else .none
  | .hub _ =>
    if off < 0x20000 then .fixed
    else if 0x20000 ≤ off && off < 0x20100 then .fixed
    else if 0x40000 ≤ off && off < 0x80000 then .data
    else if 0x80000 ≤ off && off < 0x81000 then .ctl (off - 0x80000)
    else .none

/-- QSTAT[e] of the reading core's stream (R503). -/
def qstat (x : Tile) (stream e : Nat) : Nat :=
  if e = 1 && stream ≠ 7 then 0
  else
    let en := x.engine (stream + e)
    min en.queue.length 16 + 256 * b2n en.run.isSome

/-- Watchdog limit in ms (R199, R206). -/
def wdogLimit (dp : DataPlane) : CoreId → Nat
  | .tile t _ => match (dp.tile t).launch with
    | some l => l.wdogMs
    | none => 10
  | .hub _ => Config.hubWdogMs

/-- An engine of the core's tile runs an instruction, and may have passed a preemption point at any moment (R206). -/
def engineRuns (dp : DataPlane) : CoreId → Bool
  | .tile t _ => (List.range 9).any (fun e => ((dp.tile t).engine e).run.isSome)
  | .hub _ => false

/-- Time since a core's watchdog restarted: a running engine of its tile may have restarted it since, at a moment that is
free (R206). -/
def wdogSpent (plumb : Nat) (dp : DataPlane) (c : CoreId) : Nat :=
  let n := plumb - (dp.core c).wdStart
  if engineRuns dp c then (Config.freeWord dp.free).toNat % (n + 1) else n

/-- Nanoseconds left of a core's watchdog, held in 32 bits (R503). -/
def wdogLeft (plumb : Nat) (dp : DataPlane) (c : CoreId) : Nat :=
  min (wdogLimit dp c * 1000000 - wdogSpent plumb dp c) (2 ^ 32 - 1)

/-- The FAULT record (R503). -/
def faultBytes : Option FaultRec → List Byte
  | none => List.replicate 32 0
  | some f => leBytes 2 f.status ++ leBytes 1 f.stream ++ leBytes 1 0 ++ leBytes 4 f.index ++ leBytes 8 f.pc ++
      leBytes 8 f.addr ++ leBytes 8 f.plumb

/-- One byte of the control registers (R503); offsets that are not listed read 0, and a hub core has no tokens and no
engine queues. -/
def ctlByte (plumb : Nat) (dp : DataPlane) (c : CoreId) (off : Nat) : Byte :=
  let word := fun v => BitVec.ofNat 8 (v / 256 ^ (off % 4))
  match c with
  | .tile t i =>
    let x := dp.tile t
    if off < 0x80 then word (x.token (off / 4))
    else if off < 0x88 then word (qstat x i ((off - 0x80) / 4))
    else if 0xC0 ≤ off && off < 0xC4 then word (wdogLeft plumb dp c)
    else if 0xC4 ≤ off && off < 0xC8 then word (wdogLimit dp c)
    else if 0x100 ≤ off && off < 0x120 then (faultBytes x.fault).getD (off - 0x100) 0
    else 0
  | .hub _ =>
    if 0xC0 ≤ off && off < 0xC4 then word (wdogLeft plumb dp c)
    else if 0xC4 ≤ off && off < 0xC8 then word (wdogLimit dp c)
    else 0

/-! ### Where an access goes -/

/-- A core access after R183 and R212: a listed private region, the device, another module, or refused UNMAPPED. -/
inductive CoreLoc where
  | fixed (off : Nat)
  | data (off : Nat)
  | ctl (off : Nat)
  | dev (a : Nat)
  | remote (home a : Nat)
  | bad
deriving DecidableEq, Repr

def coreLocate (cfg : FabCfg) (c : CoreId) (a : Nat) : CoreLoc :=
  match resolve cfg a with
  | .bad => .bad
  | .remote h a => .remote h a
  | .dev a =>
    if windowOf a = .priv then
      match privRegion c (a - privBase), c with
      | .fixed, _ => .fixed (a - privBase)
      | .data, _ => .data (a - privBase)
      | .ctl o, _ => .ctl o
      | .alias_ o, .tile t _ => .dev (tileBase t + o)
      | .alias_ _, .hub _ => .bad
      | .none, _ => .bad
    else .dev a

/-- The tile whose own store a core reaches without a check (R238). -/
def coreOwn : CoreId → Option Nat
  | .tile t _ => some t
  | .hub _ => none

/-- The access check of a core, reporting the address as issued (R238, R240). -/
def coreCheck (dp : DataPlane) (c : CoreId) (k : AccessKind) (issued a n : Nat) : Option EFault :=
  (accessCheck dp (dp.coreCls c) (coreOwn c) k a n).map (fun r => EFault.access_ r.1 k issued)

/-- The agent that a core's accesses count as (R256). -/
def coreAgent : CoreId → Option Nat
  | .tile t _ => some t
  | .hub _ => none

/-- Drop the cache lines that a core's own access at the point of coherence makes stale for it (R196, R244). -/
def DataPlane.coreDrop (dp : DataPlane) (c : CoreId) (a n : Nat) : DataPlane :=
  match c with
  | .tile t _ => dp.setTile t ((dp.tile t).invalidateRange a n)
  | .hub _ => dp

/-- A core's write at its point of coherence (R196, R253). -/
def DataPlane.coreWrite (dp : DataPlane) (c : CoreId) (a : Nat) (bs : List Byte) : DataPlane :=
  match c with
  | .tile t _ => dp.tileWrite t a bs
  | .hub _ => { dp with mem := dp.mem.write a bs }.stir none a bs.length

/-- Write a core's own data memory. -/
def DataPlane.dataWrite (dp : DataPlane) (c : CoreId) (off : Nat) (bs : List Byte) : DataPlane :=
  dp.setCore c { dp.core c with mem := writeBytes (dp.core c).mem off bs }

/-- A core waits for the response to the request it has just sent (R362). -/
def DataPlane.awaitRemote (dp : DataPlane) (c : CoreId) (home : Nat) (kind : AccessKind) (args : List Nat)
    (data : List Byte) (rd : Reg) (bytes : Nat) (sgn acq : Bool) : DataPlane :=
  let tag := SMap.get 0 dp.tagNext home
  let dp := dp.sendRemote home kind (.core c) args data
  dp.setCore c { dp.core c with st := .remoteWait tag rd bytes sgn acq }

/-- Sign or zero extension to 64 bits (R180). -/
def extend (sgn : Bool) (n v : Nat) : U64 := if sgn then BitVec.ofInt 64 (signedOf (8 * n) v) else BitVec.ofNat 64 v

/-- A misaligned access: the fault names the address (R207). -/
def misaligned (a : Nat) : CoreEnd := .fault { status := stCoreMisaligned, at_ := some a } 0

/-- A load of `n` bytes (R180, R183, R221, R246). A reader outside the scope of an atomic in progress finds an undefined
value (R257). -/
def coreLoad (env : Env) (dp : DataPlane) (c : CoreId) (n : Nat) (vol sgn : Bool) (rd : Reg) (a : Nat) : CoreEnd :=
  let fin := fun (dp : DataPlane) (bs : List Byte) => CoreEnd.done (dp.retireReg env.plumb c rd (extend sgn n (leNat bs)))
  if a % n ≠ 0 then misaligned a
  else match coreLocate env.cfg c a with
    | .bad => .fault (EFault.access_ reasonUnmapped .read a) 0
    | .fixed o => fin dp (readBytes (dp.core c).mem o n)
    | .data o => fin dp (readBytes (dp.core c).mem o n)
    | .ctl o => fin { dp with free := dp.free + 1 } ((List.range n).map (fun i => ctlByte env.plumb dp c (o + i)))
    | .remote h l => .done (dp.awaitRemote c h .read [l, n] [] rd n sgn false)
    | .dev l =>
      match coreCheck dp c .read a l n with
      | some f => .fault f 0
      | none =>
        let dp := dp.stir (coreAgent c) l n
        match c with
        | .tile t _ =>
          if vol then
            match poisonedAt dp.mem l n with
            | some g => .fault (EFault.poison_ g) 0
            | none => fin ((dp.coreDrop c l n).addUsage (dp.coreCls c) (fun u => { u with hbmRd := u.hbmRd + hbmBytes l n }))
                (readBytes dp.mem.dev l n)
          else
            match cachedPoison dp (dp.tile t) l n with
            | some g => .fault (EFault.poison_ g) 0
            | none => fin (dp.touch t [(l, n)]) ((List.range n).map (fun i => cachedByte dp (dp.tile t) (l + i)))
        | .hub _ =>
          match poisonedAt dp.mem l n with
          | some g => .fault (EFault.poison_ g) 0
          | none => fin dp (readBytes dp.mem.dev l n)

/-- A store of `n` bytes (R180, R183, R238). A remote store is sent and the core goes on (R259, R362). -/
def coreStore (env : Env) (dp : DataPlane) (c : CoreId) (n v a : Nat) : CoreEnd :=
  let bs := leBytes n v
  if a % n ≠ 0 then misaligned a
  else match coreLocate env.cfg c a with
    | .bad => .fault (EFault.access_ reasonUnmapped .write a) 0
    | .fixed _ => .fault (EFault.access_ reasonPermission .write a) 0
    | .ctl _ => .fault (EFault.access_ reasonPermission .write a) 0
    | .data o => .done ((dp.dataWrite c o bs).retireOnly env.plumb c)
    | .remote h l => .done ((dp.sendRemote h .write (.core c) [l] bs).retireOnly env.plumb c)
    | .dev l =>
      match coreCheck dp c .write a l n with
      | some f => .fault f 0
      | none => .done ((dp.coreWrite c l bs).retireOnly env.plumb c)

/-! ### Ordering -/

/-- Scope of a hub core: DIE becomes DEVICE (R256). -/
def scopeOf (c : CoreId) (s : Scope) : Scope := if coreIsHub c && s = .die then .device else s

/-- DIE scope or wider. -/
def scopeWide : Scope → Bool
  | .tile => false
  | _ => true

/-- What an acquire of a scope does to the issuing tile: at DIE scope or wider the read cache is invalidated (R259). -/
def DataPlane.acquire (dp : DataPlane) (c : CoreId) (s : Scope) : DataPlane :=
  match c with
  | .tile t _ => if scopeWide s then dp.setTile t (dp.tile t).invalidate else dp
  | .hub _ => dp

/-- A remote request of a tile's cores or engines. -/
def RemoteOwner.ofTile (o : RemoteOwner) (t : Nat) : Bool :=
  match o with
  | .core (.tile n _) => n = t
  | .core (.hub _) => false
  | .dma n _ _ _ => n = t
  | .skim n => n = t

/-- A tile has a write on its way to another module (R249). -/
def tileWritesOut (dp : DataPlane) (t : Nat) : Bool := dp.remoteOut.any (fun r => r.kind ≠ .read && r.owner.ofTile t)

/-- A SYSTEM release waits for the acknowledgement of every earlier remote write of the core, and of those that a token
has released to it: the model waits for all of its tile's cores (R259; log entry 19). -/
def releaseWaits (dp : DataPlane) (c : CoreId) (s : Scope) : Bool :=
  s = .system && dp.remoteOut.any (fun r => r.kind ≠ .read && (match r.owner, c with
    | .core (.tile n _), .tile t _ => n = t
    | .core d, _ => d = c
    | _, _ => false))

/-- A release by a core ends what its tile's narrow atomics have in progress: those of TILE scope at DIE scope or wider,
those of DIE scope at DEVICE scope or wider (R256, R257). -/
def DataPlane.settleAtomics (dp : DataPlane) (c : CoreId) (s : Scope) : DataPlane :=
  match c with
  | .tile t _ => { dp with narrow := dp.narrow.filter (fun x => match x.core with
      | .tile n _ => n ≠ t || s = .tile || (x.die && s = .die)
      | .hub _ => true) }
  | .hub _ => dp

/-- An atomic that the scope lets the tile perform away from the point of coherence (R256): TILE scope outside the own tile
store, and DIE scope. -/
def atomicAway (c : CoreId) (s : Scope) (a : Nat) : Bool :=
  match c, s with
  | .tile t _, .tile => windowOf a ≠ .tile t
  | .tile _ _, .die => true
  | _, _ => false

def orderAcquires : MemOrder → Bool
  | .acquire => true | .acqRel => true | _ => false

def orderReleases : MemOrder → Bool
  | .release => true | .acqRel => true | _ => false

/-! ### Atomics -/

/-- New value of an atomic at a location of `w` bits (R254). -/
def atomicNew (op w old v cmp : Nat) : Nat :=
  let m := 2 ^ w
  match op with
  | 0x00 => v % m
  | 0x01 => if old = cmp % m then v % m else old
  | 0x02 => (old + v) % m
  | 0x03 => old &&& v % m
  | 0x04 => old ||| v % m
  | 0x05 => old ^^^ v % m
  | 0x06 => if signedOf w (v % m) < signedOf w old then v % m else old
  | 0x07 => if signedOf w old < signedOf w (v % m) then v % m else old
  | 0x08 => min old (v % m)
  | 0x09 => max old (v % m)
  | 0x0A => fadd old (v % m)
  | _ => old

/-- A core atomic (R254 to R257, R259). A release part that must wait leaves the core where it is. The value that it returns
is undefined where another agent's atomic in progress shows one of the two to be too narrow. -/
def coreAtomic (env : Env) (dp : DataPlane) (x : AtomicArgs) (op : Nat) (k : Core) : CoreEnd :=
  let n := if x.w64 then 8 else 4
  let a := (k.reg x.rs1).toNat
  let v := (k.reg x.rs2).toNat
  let cmp := (k.reg x.rd).toNat
  let sc := scopeOf x.core x.scope
  let rel := fun (dp : DataPlane) => if orderReleases x.order then dp.settleAtomics x.core sc else dp
  let acq := fun (dp : DataPlane) => if orderAcquires x.order then dp.acquire x.core sc else dp
  let fin := fun (dp : DataPlane) (old : Nat) => CoreEnd.done ((acq dp).retireReg env.plumb x.core x.rd (BitVec.ofNat 64 old))
  if !atomicWidthOk op x.w64 then illegal
  else if a % n ≠ 0 then misaligned a
  else if orderReleases x.order && releaseWaits dp x.core x.scope then .done dp
  else match coreLocate env.cfg x.core a with
    | .bad => .fault (EFault.access_ reasonUnmapped .atomic a) 0
    | .fixed _ => .fault (EFault.access_ reasonPermission .atomic a) 0
    | .ctl _ => .fault (EFault.access_ reasonPermission .atomic a) 0
    | .data o =>
      let old := readNat k.mem o n
      fin (dp.dataWrite x.core o (leBytes n (atomicNew op (8 * n) old v cmp))) old
    | .remote h l => .done (dp.awaitRemote x.core h .atomic [l, n, op, cmp] (leBytes n v) x.rd n false
        (orderAcquires x.order && scopeWide x.scope))
    | .dev l =>
      match coreCheck dp x.core .atomic a l n with
      | some f => .fault f 0
      | none =>
        match poisonedAt dp.mem l n with
        | some g => .fault (EFault.poison_ g) 0
        | none =>
          let dp := (rel dp).stir (coreAgent x.core) l n
          let old := readNat dp.mem.dev l n
          let dp := if atomicAway x.core sc l then { dp with narrow := dp.narrow ++ [⟨x.core, decide (sc = .die), l, n⟩] } else dp
          if op = 0x0B then fin (dp.coreDrop x.core l n) old
          else fin (dp.coreWrite x.core l (leBytes n (atomicNew op (8 * n) old v cmp))) old

/-- Run an atomic. -/
def runAtomic (x : AtomicArgs) (op : Nat) (s : State) : Out :=
  s.work (fun env dp => coreRun env dp x.core (isAtomic op x) (coreAtomic env dp x op))

end Sys2Proof.Machine
end

