-- ==== Sys2Proof/Machine/Tree.lean ====
section
/-! DEFINITION. Launch records as the dispatcher sees them (R270), the completion-combining tree (R33, R34), and which record
the dispatcher takes next (R274, R277, R278, R303). -/

namespace Sys2Proof.Machine

/-- The launch record of a queue and sequence that has not completed. -/
def DataPlane.launch (dp : DataPlane) (q seq : Nat) : Option Launch := dp.launches.find? (fun l => l.q = q && l.seq = seq)

/-- Change one launch. -/
def DataPlane.modLaunch (dp : DataPlane) (q seq : Nat) (f : Launch → Launch) : DataPlane :=
  { dp with launches := dp.launches.map (fun l => if l.q = q && l.seq = seq then f l else l) }

/-- The first fault of a launch is kept (R203); its engines are to be aborted. -/
def Launch.fail (l : Launch) (f : LaunchFault) : Launch := { l with fault := some (l.fault.getD f), aborting := true }

/-! ### The combining tree -/

/-- Column of a die's root stop (R21). -/
def rootCol (die : Nat) : Nat := if die = 0 then 10 else 1

/-- The router that a router's token goes to: along its row to the root column, then south; none at the root stop
(R33). Routers carry their tile's number. -/
def treeParent (n : Nat) : Option Nat :=
  let d := n / 84
  let x := n % 84 % 12
  let y := n % 84 / 12
  if x < rootCol d then some (n + 1)
  else if rootCol d < x then some (n - 1)
  else if 0 < y then some (n - 12)
  else none

/-- The routers on a tile's path to its root stop, the tile's own first; a path has at most 17 routers. -/
def treePath : Nat → Nat → List Nat
  | 0, _ => []
  | k + 1, n => n :: (match treeParent n with
    | some p => treePath k p
    | none => [])

/-- Tiles of a launch in a router's subtree. -/
def subtree (tiles : List Nat) (router : Nat) : Nat := (tiles.filter (fun t => (treePath 18 t).contains router)).length

def DataPlane.slots (dp : DataPlane) (r : Nat) : List CSlot := SMap.get [] dp.combine r
def DataPlane.setSlots (dp : DataPlane) (r : Nat) (cs : List CSlot) : DataPlane :=
  { dp with combine := SMap.set [] dp.combine r cs }

/-- Add done counts arriving at a router for a launch (R33). -/
def DataPlane.arriveToken (dp : DataPlane) (r q seq n : Nat) : DataPlane :=
  dp.setSlots r ((dp.slots r).map (fun c => if c.q = q && c.seq = seq then { c with got := c.got + n } else c))

/-- Free a launch's slot at a router. -/
def DataPlane.freeSlot (dp : DataPlane) (q seq r : Nat) : DataPlane :=
  dp.setSlots r ((dp.slots r).filter (fun c => !(c.q = q && c.seq = seq)))

/-- Records of a queue that are fetched and not dispatched. -/
def LStage.waiting : LStage → Bool
  | .fetched => true | .ready => true | .window => true | _ => false

/-! ### What may be dispatched -/

/-- The routers that take a slot for a launch on these tiles (R33). -/
def treeRouters (tiles : List Nat) : List Nat := (List.range 168).filter (fun r => subtree tiles r ≠ 0)

/-- Whether the record starts tiles. -/
def Launch.usesTiles (l : Launch) : Bool := l.type = .launch && !l.skip && l.gx * l.gy * l.gz ≠ 0

/-- Every tile of the group is free (R277). -/
def tilesIdle (dp : DataPlane) (l : Launch) : Bool := !l.usesTiles || l.tiles.all (fun t => (dp.tile t).phase = .idle)

/-- Each die that the launch uses has free combining slots (R34, R277). -/
def slotsFree (dp : DataPlane) (l : Launch) : Bool :=
  !l.usesTiles || (treeRouters l.tiles).all (fun r => (dp.slots r).length < 64)

/-- Its checks have passed. -/
def Launch.checked (l : Launch) : Bool := (l.stage = .ready || l.stage = .window) && !l.aborting

/-- Its time has come: the staging window for a timed LAUNCH (R279), NOT_BEFORE for other timed records. -/
def Launch.timeOk (l : Launch) (plumb : Nat) : Bool :=
  !l.timed || (if l.type = .launch then l.stage = .window else l.notBefore ≤ plumb)

/-- Records before a record, in fetch order. -/
def beforeRec (dp : DataPlane) (l : Launch) : List Launch :=
  dp.launches.takeWhile (fun y => !(y.q = l.q && y.seq = l.seq))

/-- Queue order (R274): OVERLAP 0 waits for every earlier record of its queue. OVERLAP 1 follows the earlier records of
its priority, and passes one of another priority only while that one is held on its waits, time or tiles; `free` says of a
record that it is not. -/
def orderWith (free : Launch → Bool) (dp : DataPlane) (l : Launch) : Bool :=
  let es := (beforeRec dp l).filter (fun y => y.q = l.q)
  if l.overlap then es.all (fun y => !y.stage.waiting || (y.prio ≠ l.prio && !free y)) else es.isEmpty

/-- Its checks, time and combining slots let the record go. -/
def readyButTiles (env : Env) (dp : DataPlane) (l : Launch) : Bool := l.checked && l.timeOk env.plumb && slotsFree dp l

/-- The record waits only for tiles (R278), when its queue order holds. -/
def lacksTiles (env : Env) (dp : DataPlane) (l : Launch) : Bool := readyButTiles env dp l && l.usesTiles && !tilesIdle dp l

/-- The record of a priority that reserves tiles: the oldest that waits only for them, or has waited and now has them all
(R278). -/
def reserverWith (order : Launch → Bool) (env : Env) (dp : DataPlane) (prio : Nat) : Option Launch :=
  dp.launches.find? (fun l => l.prio = prio && l.stage.waiting && order l &&
    (lacksTiles env dp l || (l.waited && readyButTiles env dp l)))

/-- No tile of the record is reserved for another record of its priority or a higher one (R278). -/
def unreservedWith (order : Launch → Bool) (env : Env) (dp : DataPlane) (l : Launch) : Bool :=
  !l.usesTiles || (List.range 4).all (fun p =>
    p < l.prio || (match reserverWith order env dp p with
      | some r => (r.q = l.q && r.seq = l.seq) || !r.tiles.any (fun t => l.tiles.contains t)
      | none => true))

/-- Not held on its waits, time or tiles, a reserved tile not being free (R274). The reservations that count are those of
records whose order holds, which again asks which records are held, `depth` times. -/
def unheldAt (env : Env) (dp : DataPlane) : Nat → Launch → Bool
  | 0, l => l.checked && l.timeOk env.plumb && tilesIdle dp l
  | depth + 1, l => l.checked && l.timeOk env.plumb && tilesIdle dp l &&
      unreservedWith (orderWith (unheldAt env dp depth) dp) env dp l

/-- Queue order holds (R274). -/
def orderOk (env : Env) (dp : DataPlane) (l : Launch) : Bool := orderWith (unheldAt env dp 2) dp l

/-- Records that wait only for tiles, when a tile is about to be free: they have waited (R278). -/
def DataPlane.markWaited (dp : DataPlane) (env : Env) : DataPlane :=
  { dp with launches := dp.launches.map (fun l =>
      if l.stage.waiting && lacksTiles env dp l && orderOk env dp l then { l with waited := true } else l) }

/-- R277, for LAUNCH and MARKER records. -/
def dispatchable (env : Env) (dp : DataPlane) (l : Launch) : Bool :=
  l.type ≠ .hub && readyButTiles env dp l && tilesIdle dp l && orderOk env dp l && unreservedWith (orderOk env dp) env dp l

/-- R277, for HUB records. -/
def handable (env : Env) (dp : DataPlane) (l : Launch) : Bool :=
  l.type = .hub && l.checked && l.timeOk env.plumb && orderOk env dp l

/-- Distance of a queue in the round robin of its priority (R277). -/
def turn (dp : DataPlane) (l : Launch) : Nat := (l.q + 256 - SMap.get 0 dp.served l.prio) % 256

/-- Highest priority first, then round robin over queues, then fetch order (R277). -/
def firstOf (dp : DataPlane) (ls : List Launch) : Option Launch :=
  ls.foldl (fun b l =>
    match b with
    | none => some l
    | some x => if x.prio < l.prio || (x.prio = l.prio && turn dp l < turn dp x) then some l else b) none

/-- The dispatcher's choice among LAUNCH and MARKER records. -/
def firstChoice (env : Env) (dp : DataPlane) : Option Launch := firstOf dp (dp.launches.filter (dispatchable env dp))

/-- The hub engines serve HUB records in the same order (R303). -/
def firstHub (env : Env) (dp : DataPlane) : Option Launch := firstOf dp (dp.launches.filter (handable env dp))

end Sys2Proof.Machine
end

