-- ==== Sys2Proof/Machine/Engines.lean ====
section
/-! DEFINITION. The end of work on a tile: engine completion (R193 to R196), fault reports (R203), the end of a tile's
share (R202) and the completion-combining tree (R33, R34). -/

namespace Sys2Proof.Machine

/-! ### Engine completion -/

/-- Increment a token at an engine's completion; a token at 255 faults the tile (R193, R195). -/
def Tile.signal (env : Env) (x : Tile) (e index : Nat) : Option Nat → Tile
  | none => x
  | some n =>
    if 255 ≤ x.token n then x.faultStop ⟨stScoreboardOverflow, engineStream e, index, 0, 0, env.plumb⟩
    else settleTokens env.plumb (x.setToken n (x.token n + 1))

/-- What the end of an instruction does to memory: a region operation is carried out, and any other instruction performs
the writes that are left (R162, R196, R248). A region operation may fail. -/
def endRun (env : Env) (t e : Nat) (dp : DataPlane) (r : Running) : DataPlane × Option EFault :=
  if e = 0 then regionFinish env t allSequences dp r else (r.finish t dp, none)

/-- An engine's instruction is over: every core's watchdog restarts (R206). -/
def DataPlane.clearRun (dp : DataPlane) (plumb t e : Nat) : DataPlane :=
  let x := dp.tile t
  dp.setTile t ((x.setEngine e { x.engine e with run := none }).kickDogs plumb)

/-- ENGINE_COMPLETE (R193, R196): the instruction's writes are performed and, on the matrix unit, its audits have
finished (R115). An engine that an abort has reached signals nothing (R205). -/
def execEngineComplete (t e : Nat) (s : State) : Out :=
  s.work (fun env dp =>
    let x := dp.tile t
    let en := x.engine e
    match en.run with
    | none => dp
    | some r =>
      if e < 9 && (x.phase = .running || x.phase = .stopping) && !en.stopping && r.remote = 0 && r.todo.isEmpty &&
          (e ≠ 1 || x.patchBlocks.isEmpty) then
        let (dp, fault) := endRun env t e dp r
        let dp := dp.clearRun env.plumb t e
        match fault with
        | some f => engineFail env dp t e 6 r.entry f
        | none =>
          let y := dp.tile t
          dp.setTile t (if x.phase = .running then y.signal env e r.entry.index r.entry.sig else y.settleStop)
      else dp)

/-! ### Faults -/

/-- TILE_FAULT_REPORT (R203): the dispatcher learns of the tile's first fault and aborts the launch's other tiles. -/
def execTileFaultReport (t : Nat) (s : State) : Out :=
  s.work (fun _ dp =>
    let x := dp.tile t
    match x.fault, x.launch with
    | some f, some l =>
      if !x.reported && (x.phase = .stopping || x.phase = .stopped) then
        (dp.setTile t { x with reported := true }).modLaunch l.q l.seq (·.fail ⟨f.status, t, f.stream, f.index⟩)
      else dp
    | _, _ => dp)

/-! ### The combining tree -/

/-- The collector has a credit free: without one, root stops and routers hold their tokens, and tiles stall at their final
signal (R281). -/
def creditFree (dp : DataPlane) : Bool := dp.collector.length < 512

/-- COMPLETION_TOKEN_COMBINE (R33, R281): a router whose subtree has finished forwards one token and frees its slot. -/
def execCompletionTokenCombine (router q seq : Nat) (s : State) : Out :=
  s.work (fun _ dp =>
    match (dp.slots router).find? (fun c => c.q = q && c.seq = seq) with
    | none => dp
    | some c =>
      if c.need ≤ c.got && creditFree dp then
        match treeParent router with
        | some p => (dp.freeSlot q seq router).arriveToken p q seq c.got
        | none => { dp.freeSlot q seq router with collector := dp.collector ++ [(q, seq, router / 84)] }
      else dp)

/-! ### The end of a tile's share -/

/-- A stream without a program, or whose core has exited (R202). -/
def Core.ended (k : Core) : Bool := k.st = .idle || k.st = .exited

/-- TILE_SHARE_END (R202): all eight streams have exited, every queue is empty and every engine idle. The tile sends its
completion token into the tree and is free. -/
def execTileShareEnd (t : Nat) (s : State) : Out :=
  s.work (fun env dp =>
    let x := dp.tile t
    match x.launch with
    | none => dp
    | some l =>
      if x.phase = .running && (List.range 8).all (fun c => (x.core c).ended) && x.quiet && !tileWritesOut dp t && creditFree dp then
        let dp := (dp.markWaited env).modLaunch l.q l.seq (fun y => { y with packBad := y.packBad || x.packBad ≠ 0 })
        (dp.setTile t { x with phase := .idle, launch := none, tokens := [] }).arriveToken t l.q l.seq 1
      else dp)

end Sys2Proof.Machine
end

