-- ==== Sys2Proof/Machine/Queues.lean ====
section
/-! DEFINITION. Queues (R262 to R268), launch records and their checks (R269 to R272), launch events (R273 to R276),
and completion records (R282 to R284). -/

namespace Sys2Proof.Machine

/-! ### Functions and their partitions -/

/-- VF `fn` exists (R291). -/
def vfExists (dp : DataPlane) (fn : Nat) : Bool := dp.vfEnable && fn ≤ dp.numVfs && fn ≤ 16

/-- Function `fn` answers: PF0, or a VF that exists, while the PCIe link is up (R291, R408). -/
def fnExists (dp : DataPlane) (fn : Nat) : Bool := !dp.pcieDown && (fn = 0 || vfExists dp fn)

/-- The blocks of PF0 BAR0 that are decoded before a final state (R420). -/
def decodedEarly (off : Nat) : Bool :=
  off < 0x1000 || (0x2000 ≤ off && off < 0x4000) || (0x6000 ≤ off && off < 0xA000) || (0x20000 ≤ off && off < 0x2000C) ||
  (0x21000 ≤ off && off < 0x22000) || (0x30000 ≤ off && off < 0x40000)

/-- The blocks of PF0 BAR0 that are decoded in SAFE (R420). -/
def decodedSafe (off : Nat) : Bool :=
  off < 0x4000 || (0x6000 ≤ off && off < 0xC000) || (0xF000 ≤ off && off < 0xF800) || (0x10000 ≤ off && off < 0x19000) ||
  (0x20000 ≤ off && off < 0x22000) || (0x23000 ≤ off && off < 0x25000) || (0x30000 ≤ off && off < 0x40000)

/-- A function's BAR0 decodes an offset (R408, R420): the module serves its registers, the function answers, and the block
is open in the present state. -/
def barDecodes (s : State) (fn off : Nat) : Bool :=
  s.awake && fnExists s.dp fn &&
  (s.env.serving || (fn = 0 && (if s.mg.boot.st = .safe then decodedSafe off else decodedEarly off)))

/-- A function may command a queue: its partition is enabled and its plan lists the queue (R262, R302). -/
def fnOwns (dp : DataPlane) (fn q : Nat) : Bool := (dp.part fn).st ≠ .disabled && (dp.part fn).queues.contains q


/-! ### The dispatcher's accesses -/

def dispatcherId : Nat := 0x600

/-- A hub unit's read in a partition's class (R236, R263), with the requester ID of its function for host memory (R234). Units
that may not issue a fabric global address of another module find it unmapped (R213). -/
def hubRead (env : Env) (dp : DataPlane) (p : Nat) (host : Bool) (a n : Nat) : Except EFault (List Byte) :=
  if host then
    if hostReach dp p a n then .ok (readBytes dp.mem.host a n) else .error (EFault.plain stHostDmaError)
  else match resolve env.cfg a with
    | .dev l =>
      match checkedRead dp p none l n with
      | .ok b => .ok b
      | .error f => .error (f.asIssued a l)
    | _ => .error (EFault.access_ reasonUnmapped .read a)

/-- Key of a byte of another module's memory. -/
def farKey (home a : Nat) : Nat := home * 2 ^ 48 + a

/-- Why a home module refuses a hub engine's access: a window that it does not admit, or its own access tables, whose reason
is free (R212, R238). -/
def farRefusal (dp : DataPlane) (home a n : Nat) : Option Nat :=
  match windowOf a with
  | .hbm | .shared _ =>
    ((pagesOf a n).find? (fun pg => SMap.get false dp.mem.farRefused (farKey home (4096 * pg) / 4096))).map (fun pg =>
      if (Config.freeWord (farKey home pg)).getLsbD 0 then reasonNoRegion else reasonPermission)
  | _ => some reasonRemote

/-- A read by a hub engine that may issue fabric global addresses (R213; log entry 34). -/
def fabRead (env : Env) (dp : DataPlane) (p a n : Nat) : Except EFault (List Byte) :=
  match resolve env.cfg a with
  | .remote h l =>
    match farRefusal dp h l n with
    | some r => .error (EFault.access_ r .read a)
    | none => .ok (readBytes dp.mem.far (farKey h l) n)
  | _ => hubRead env dp p false a n

/-- Count what a hub engine has read for a partition (R307, R311). -/
def hubUsed (env : Env) (dp : DataPlane) (p : Nat) (host : Bool) (a n : Nat) : DataPlane :=
  if host then dp.addUsage p (fun u => { u with hostDma := u.hostDma + n })
  else match resolve env.cfg a with
    | .dev l => dp.addUsage p (fun u => { u with hbmRd := u.hbmRd + hbmBytes l n })
    | _ => dp

/-- Count the reads of several ranges. -/
def hubUsedAll (env : Env) (dp : DataPlane) (p : Nat) (rs : List (Nat × Nat)) : DataPlane :=
  rs.foldl (fun dp r => hubUsed env dp p false r.1 r.2) dp

/-- A hub engine's write in a partition's class, counted for it (R236, R251, R307). -/
def hubWrite (env : Env) (dp : DataPlane) (p : Nat) (host : Bool) (a : Nat) (bs : List Byte) : Except EFault DataPlane :=
  if host then .ok ((dp.hostWrite p a bs false).addUsage p (fun u => { u with hostDma := u.hostDma + bs.length }))
  else match resolve env.cfg a with
    | .dev l => do
      checkIssued dp p none .write a l bs.length
      pure (DataPlane.addUsage ({ dp with mem := dp.mem.write l bs }.stir none l bs.length) p
        (fun u => { u with hbmWr := u.hbmWr + hbmBytes l bs.length }))
    | _ => .error (EFault.access_ reasonUnmapped .write a)

/-- A write by a hub engine that may issue fabric global addresses (R213), counted as sent over Jothen (R311). -/
def fabWrite (env : Env) (dp : DataPlane) (p a : Nat) (bs : List Byte) : Except EFault DataPlane :=
  match resolve env.cfg a with
  | .remote h l =>
    match farRefusal dp h l bs.length with
    | some r => .error (EFault.access_ r .write a)
    | none => .ok (DataPlane.addUsage { dp with mem := { dp.mem with far := writeBytes dp.mem.far (farKey h l) bs } } p
        (fun u => { u with fabTx := u.fabTx + bs.length }))
  | _ => hubWrite env dp p false a bs

/-- Report a refused or poisoned access of a hub engine (R222, R240); AER records a failed host read (R234). -/
def hubFault (env : Env) (dp : DataPlane) (p master seq q : Nat) (f : EFault) : DataPlane :=
  let dp := if f.status = stHostDmaError then dp.recordAer p .unsupported else dp
  { dp with parts := logFault env p master p seq q 1 (master % 0x100) f dp.parts }

/-! ### Completion records -/

/-- The fields of a completion record (R283). -/
structure CRec where
  status : Nat
  kind : Nat
  late : Bool
  timed : Bool
  seq : Nat
  ftile : Nat
  detail : Nat
  start : Nat
deriving DecidableEq, Repr

/-- PHASE: 1 on the first pass round the ring (R283). -/
def Queue.phase (x : Queue) : Bool := (x.written / 2 ^ x.csize) % 2 = 0

/-- The 32 bytes of R283. -/
def CRec.bytes (r : CRec) (x : Queue) (q plumb : Nat) : List Byte :=
  leBytes 2 r.status ++ leBytes 1 r.kind ++ leBytes 1 (b2n x.phase + 2 * b2n r.late + 4 * b2n r.timed) ++
  leBytes 4 r.seq ++ leBytes 2 q ++ leBytes 2 r.ftile ++ leBytes 4 r.detail ++ leBytes 8 r.start ++ leBytes 8 plumb

/-- Write a completion record to its ring, which never waits for space (R268), and count it. A refused write is reported
(R240). -/
def putCompletion (env : Env) (dp : DataPlane) (q : Nat) (r : CRec) : DataPlane :=
  let x := dp.queue q
  let a := x.cring + 32 * (x.written % 2 ^ x.csize)
  let dp := match hubWrite env dp x.fn x.chost a (r.bytes x q env.plumb) with
    | .ok dp => dp
    | .error f => hubFault env dp x.fn dispatcherId r.seq q f
  dp.setQueue q { x with written := (x.written + 1) % 2 ^ 32 }

/-- A record of kind 4 to 6, which always raises the queue's vector (R284). -/
def putCommandRecord (env : Env) (dp : DataPlane) (q status kind detail : Nat) (start : Option Nat) : DataPlane :=
  let r : CRec := ⟨status, kind, false, false, 0, 0xFFFF, detail, start.getD (Config.freeWord dp.free).toNat⟩
  let dp := putCompletion env { dp with free := dp.free + 1 } q r
  dp.raise (dp.queue q).fn (dp.queue q).vec

def RecType.code : RecType → Nat
  | .launch => 1 | .marker => 2 | .hub => 3

/-- Status at collection: the first fault's, PACK_INVALID, or SUCCESS (R203, R290). -/
def Launch.final (l : Launch) : Nat :=
  match l.fault with
  | some f => f.status
  | none => if l.packBad then stPackInvalid else stSuccess

/-- Set a record's valid signals (R273, R275). -/
def DataPlane.signals (dp : DataPlane) (p status : Nat) (sigs : List Nat) : DataPlane :=
  let valid := sigs.filter (fun w => bit w 31)
  { dp with events := valid.foldl (fun ev w => signalEvent status ev p (bits w 30 20)) dp.events }

/-- Tiles that still hold a launch are free again: their outstanding loads are discarded (R204), and what their narrow atomics
left is home (R256). -/
def DataPlane.releaseTiles (dp : DataPlane) (q seq : Nat) (ts : List Nat) : DataPlane :=
  ts.foldl (fun dp t =>
    let x := dp.tile t
    match x.launch with
    | some l =>
      if l.q = q && l.seq = seq then
        { dp.setTile t { x with phase := .idle, launch := none, tokens := [] } with
          remoteOut := dp.remoteOut.filter (fun r => !(r.kind = .read && r.owner.ofTile t))
          narrow := dp.narrow.filter (fun y => match y.core with
            | .tile n _ => n ≠ t
            | .hub _ => true) }
      else dp
    | none => dp) dp

/-- DETAIL of a launch: stream and instruction index of its first fault (R283); a free value without one. -/
def Launch.detail (l : Launch) (k : Nat) : Nat :=
  match l.fault with
  | some f => if f.tile = 0xFFFF then bits (Config.freeWord k).toNat 31 0 else f.stream * 2 ^ 24 + f.index % 2 ^ 24
  | none => bits (Config.freeWord k).toNat 31 0

/-- Change the records of the step that a partition's service runs on queue `q`. -/
def DataPlane.modStep (dp : DataPlane) (p q : Nat) (f : StepRec → StepRec) : DataPlane :=
  match SMap.get none dp.services p with
  | none => dp
  | some v =>
    if fld v.desc 2 1 ≠ q then dp
    else { dp with services := SMap.set none dp.services p (some { v with
      step := v.step.map (fun t => { t with recs := t.recs.map f }) }) }

/-- A service learns the status of a record that its step submitted (R338). -/
def DataPlane.noteStep (dp : DataPlane) (p q seq status : Nat) : DataPlane :=
  dp.modStep p q (fun r => if r.seq = some seq then { r with status := some status } else r)

/-- A record of a service's step has been fetched, and has its launch sequence. -/
def DataPlane.noteFetch (dp : DataPlane) (p q number seq : Nat) : DataPlane :=
  dp.modStep p q (fun r => if r.number = number && r.seq.isNone then { r with seq := some seq } else r)

/-- The records of a service's step that a queue will not fetch any more end with ABORTED (R265, R286; log entry 45). -/
def DataPlane.loseStep (dp : DataPlane) (q : Nat) : DataPlane :=
  dp.modStep (dp.queue q).fn q (fun r => if r.seq.isNone then { r with status := some stAborted } else r)

/-- The arrays that a record of hub firmware's own names (R338; log entry 45). -/
def DataPlane.stepAddrs (dp : DataPlane) (l : Launch) : Option (List Nat) :=
  match SMap.get none dp.services l.part with
  | none => none
  | some v =>
    if fld v.desc 2 1 ≠ l.q then none
    else match v.step with
      | none => none
      | some t => match t.recs.find? (fun r => r.seq = some l.seq && !r.addrs.isEmpty) with
        | some r => some r.addrs
        | none => none

/-- Complete a record (R249, R275, R282 to R284): the completion record, then the signals, then the interrupt; the usage
counters (R311); its tiles, combining slots and tokens are given up. START of work that never started is a free
value. -/
def finish (env : Env) (dp : DataPlane) (l : Launch) (kind status : Nat) : DataPlane :=
  let r : CRec := ⟨status, kind, l.late, l.timed, l.seq, (l.fault.map (·.tile)).getD 0xFFFF, l.detail dp.free,
    l.start.getD (Config.freeWord (dp.free + 1)).toNat⟩
  let dp := (dp.markWaited env).releaseTiles l.q l.seq l.tiles
  let dp := (List.range 168).foldl (fun dp n => dp.freeSlot l.q l.seq n) dp
  let dp := { dp with
    launches := dp.launches.filter (fun y => !(y.q = l.q && y.seq = l.seq))
    collector := dp.collector.filter (fun c => !(c.1 = l.q && c.2.1 = l.seq))
    collected := dp.collected.filter (fun c => !(c.2.1 = l.q && c.2.2 = l.seq))
    hubQueue := dp.hubQueue.filter (fun c => !(c.1 = l.q && c.2 = l.seq))
    free := dp.free + 2 }
  let dp := ((putCompletion env dp l.q r).signals l.part status l.signals).noteStep l.part l.q l.seq status
  let dp := dp.addUsage l.part (fun u => { u with launches := u.launches + 1, faults := u.faults + b2n (setsErr status) })
  if l.irq then dp.raise (dp.queue l.q).fn (dp.queue l.q).vec else dp

/-- Complete a record under its own type. -/
def complete (env : Env) (dp : DataPlane) (l : Launch) (status : Nat) : DataPlane := finish env dp l l.type.code status

/-! ### Commands that create queues -/

/-- Write QCMD's result (R285). -/
def qcmdResult (dp : DataPlane) (fn q result : Nat) : DataPlane := dp.setRegWord fn 0x4000 (result * 2 ^ 16 + q % 256 * 2 ^ 8)

/-- Descriptor address and space of a QCMD (R285). -/
def qcmdArg (dp : DataPlane) (fn : Nat) : Bool × Nat :=
  (bit (dp.regWord fn 0x4008) 31, bits (dp.regWord fn 0x4008) 30 0 * 2 ^ 32 + dp.regWord fn 0x4004)

/-- Valid descriptor fields (R263, R264). -/
def queueDescOk (msix : Nat) (b : List Byte) : Bool :=
  fld b 0 8 % 256 = 0 && fld b 8 8 % 4096 = 0 && fld b 0x10 8 % 16 = 0 && (fld b 0x18 2 ≠ 0 || fld b 0x10 8 = 0) &&
  4 ≤ fld b 0x1A 1 && fld b 0x1A 1 ≤ 16 && 4 ≤ fld b 0x1B 1 && fld b 0x1B 1 ≤ 16 && fld b 0x1C 1 < 4 &&
  fld b 0x1D 1 ≤ 3 && fld b 0x1E 2 < msix && (fld b 0x20 4 = 0 || (10 ≤ fld b 0x20 4 && fld b 0x20 4 ≤ 10000)) &&
  zeros b 0x24 4 && fld b 0x2F 1 = 0 && zeros b 0x30 16

/-- The HBM access-table entries that a queue owns (R263). -/
def acteOf (b : List Byte) : List Nat :=
  (List.range 8).filterMap (fun i => if bit (fld b 0x2E 1) i then some (bits (fld b 0x28 6) (6 * i + 5) (6 * i)) else none)

/-- An ACTIVE queue with its counters at their start (R264). -/
def queueOf (fn : Nat) (b : List Byte) : Queue :=
  { Queue.init with
    st := .active, ring := fld b 0 8, cring := fld b 8 8, htab := fld b 0x10 8, hent := fld b 0x18 2,
    rsize := fld b 0x1A 1, csize := fld b 0x1B 1, rhost := bit (fld b 0x1C 1) 0, chost := bit (fld b 0x1C 1) 1,
    prioMax := fld b 0x1D 1, vec := fld b 0x1E 2, fn := fn,
    stageLead := if fld b 0x20 4 = 0 then 100 else fld b 0x20 4, acte := acteOf b }

/-- QUEUE_CREATE (R264, R285). -/
def execQueueCreate (fn q : Nat) (s : State) : Out :=
  s.work (fun env dp =>
    if !fnExists dp fn then dp
    else if !fnOwns dp fn q then qcmdResult dp fn q 1
    else if (dp.part fn).st ≠ .ready || (dp.queue q).st ≠ .disabled then qcmdResult dp fn q 2
    else
      let arg := qcmdArg dp fn
      match hubRead env dp fn arg.1 arg.2 64 with
      | .error f => qcmdResult (hubFault env dp fn dispatcherId 0 q f) fn q 4
      | .ok b =>
        if queueDescOk (dp.part fn).msix b then (qcmdResult dp fn q 0).setQueue q (queueOf fn b)
        else qcmdResult dp fn q 3)

/-! ### Doorbells -/

/-- Records between two free-running counts (R265). -/
def span32 (hi lo : Nat) : Nat := (hi + 2 ^ 32 - lo) % 2 ^ 32

/-- A queue enters ERROR with one record of kind QUEUE (R265). -/
def queueError (env : Env) (dp : DataPlane) (q status : Nat) : DataPlane :=
  putCommandRecord env ((dp.setQueue q { dp.queue q with st := .error }).loseStep q) q status 6 0 none

/-- A doorbell of an ACTIVE queue (R265, R267): the tail is recorded with RUNG, or the queue overruns. -/
def ringDoorbell (env : Env) (dp : DataPlane) (q tail : Nat) : DataPlane :=
  let x := dp.queue q
  if 2 ^ x.rsize < span32 tail x.head then queueError env dp q stQueueOverrun
  else dp.setQueue q { x with tail := tail, rung := true }

/-- QDB_TAIL (R265 to R267): recorded with RUNG, or QUEUE_OVERRUN. Ignored unless the function's partition owns the queue
(R302, R466), is not draining (R297), and the queue is ACTIVE (R266). -/
def execQdbTail (fn q : Nat) (v : U32) (s : State) : Out :=
  s.work (fun env dp =>
    if fnExists dp fn && fnOwns dp fn q && (dp.part fn).st = .ready && (dp.queue q).st = .active then ringDoorbell env dp q v.toNat
    else dp)

/-- QDB_CQHEAD (R266, R268): the consumer's count, in every queue state; only a write of TAIL is a doorbell. -/
def execQdbCqhead (fn q : Nat) (v : U32) (s : State) : Out :=
  s.work (fun _ dp =>
    if fnExists dp fn && fnOwns dp fn q then dp.setQueue q { dp.queue q with cqhead := v.toNat } else dp)

/-! ### Fetching records -/

/-- The tiles of a group of a partition, ascending, as far as they are enabled (R270, R295). -/
def groupTiles (dp : DataPlane) (p g : Nat) : List Nat :=
  let ts := if g = 0 then (dp.part p).tiles else if g ≤ 31 then (dp.part p).tgtab.getD (g - 1) [] else []
  (List.range 168).filter (fun t => ts.contains t && dp.enabled t)

def recType : Nat → Option RecType
  | 1 => some .launch | 2 => some .marker | 3 => some .hub | _ => none

/-- Next launch sequence: 1 follows 0xFFFF_FFFF (R270). -/
def nextSequence (n : Nat) : Nat := if n = 0xFFFFFFFF then 1 else n + 1

/-- A fetched record (R269). -/
def launchOf (dp : DataPlane) (q seq : Nat) (b : List Byte) : Launch :=
  let x := dp.queue q
  let fl := fld b 2 2
  let ty := (recType (fld b 0 1)).getD .marker
  { q := q, seq := seq, part := x.fn, type := ty, prio := min (bits (fld b 1 1) 1 0) x.prioMax,
    timed := bit fl 0, indctl := bit fl 1, irq := bit fl 2, overlap := bit fl 3, group := fld b 4 1,
    gx := fld b 6 2, gy := fld b 8 2, gz := fld b 0xA 2, program := fld b 0x10 6, indirect := fld b 0x18 8,
    notBefore := fld b 0x20 8, waits := (List.range 4).map (fun i => fld b (0x28 + 4 * i) 4),
    signals := (List.range 2).map (fun i => fld b (0x38 + 4 * i) 4), const := (b.drop 0x40).take 160,
    handles := (List.range 8).map (fun i => fld b (0xE0 + 4 * i) 4), addrs := [], evBlock := 0, wdogMs := 10, build := 0,
    sects := [], crc := 0, tiles := if ty = .launch then groupTiles dp x.fn (fld b 4 1) else [], expect := [], tokens := [],
    stage := .fetched, start := none, late := false, packBad := false, skip := false, fault := none, aborting := false,
    waited := false }

/-- Check 1 of R270. -/
def launchRecordOk (b : List Byte) : Bool :=
  let ty := fld b 0 1
  (recType ty).isSome && fld b 1 1 < 4 && fld b 2 2 < 16 && zeros b 5 1 && zeros b 0xC 4 && zeros b 0x16 2 &&
  bits (fld b 0x38 4) 19 0 = 0 && bits (fld b 0x3C 4) 19 0 = 0 &&
  (ty ≠ 2 || fld b 4 1 = 0) && (ty ≠ 3 || (1 ≤ fld b 4 1 && fld b 4 1 ≤ 5)) &&
  (ty = 1 || (zeros b 6 6 && zeros b 0x10 6)) &&
  (!bit (fld b 2 2) 1 || (fld b 0x18 8 ≠ 0 && fld b 0x18 8 % 16 = 0))

/-- Checks 1 to 4 of R270, in order; none when all pass. -/
def fetchCheck (env : Env) (b : List Byte) (l : Launch) : Option Nat :=
  if !launchRecordOk b then some stRecordInvalid
  else if l.type = .launch && l.tiles.isEmpty then some stTilegroupInvalid
  else if l.timed && !env.aligned then some stPlumbUnaligned
  else if l.timed && env.plumb + 60000000000 < l.notBefore then some stTimeRange
  else none

def DataPlane.ofQueue (dp : DataPlane) (q : Nat) : List Launch := dp.launches.filter (fun l => l.q = q)

/-- The fetch window of 4 records has room (R267). -/
def windowFree (dp : DataPlane) (q : Nat) : Bool := ((dp.ofQueue q).filter (·.stage.waiting)).length < 4

/-- The completion ring has a slot for the record beyond the one kept back (R268). -/
def cringSpace (dp : DataPlane) (q : Nat) : Bool :=
  let x := dp.queue q
  span32 x.written x.cqhead + (dp.ofQueue q).length + 1 < 2 ^ x.csize

/-- Take RUNG in one step: clear it and read the tail (R267). -/
def Queue.takeRung (x : Queue) : Queue :=
  if x.head = x.tailSeen && x.rung then { x with rung := false, tailSeen := x.tail } else x

/-- Fetch the record at the head count (R265, R270). The kind of a record whose TYPE is reserved is a free value. -/
def fetchOne (env : Env) (dp : DataPlane) (q : Nat) : DataPlane :=
  let x := dp.queue q
  let a := x.ring + 256 * (x.head % 2 ^ x.rsize)
  match hubRead env dp x.fn x.rhost a 256 with
  | .error f => queueError env (hubFault env dp x.fn dispatcherId 0 q f) q stRingFault
  | .ok b =>
    let l := launchOf dp q x.nextSeq b
    let dp := ((hubUsed env dp x.fn x.rhost a 256).setQueue q
      { x with head := (x.head + 1) % 2 ^ 32, nextSeq := nextSequence x.nextSeq }).noteFetch x.fn q x.head x.nextSeq
    match fetchCheck env b l with
    | none => { dp with launches := dp.launches ++ [l] }
    | some st =>
      if (recType (fld b 0 1)).isSome then complete env dp l st
      else finish env { dp with free := dp.free + 1 } l (Config.freeByte dp.free).toNat st

/-- RECORD_FETCH (R267, R268, R270). -/
def execRecordFetch (q : Nat) (s : State) : Out :=
  s.work (fun env dp =>
    if (dp.queue q).st = .active then
      let dp := dp.setQueue q (dp.queue q).takeRung
      let x := dp.queue q
      if x.head ≠ x.tailSeen && windowFree dp q && cringSpace dp q then fetchOne env dp q else dp
    else dp)

/-! ### When the waits are met -/

/-- Every valid wait is met at this moment (R273). -/
def Launch.waitsMet (l : Launch) (ev : SMap Event) : Bool := l.waits.all (fun w => !bit w 31 || waitMet ev l.part w)

/-- A waited event carries ERR (R276). -/
def Launch.waitErr (l : Launch) (ev : SMap Event) : Bool :=
  l.waits.any (fun w => bit w 31 && (SMap.get Event.init ev (evKey l.part (bits w 30 20))).err)

/-- Why a record fails a check once its waits are met: its status, with the access that failed. -/
abbrev CheckM := Except (Nat × EFault)

/-- Relocate one handle (R271): index `i` is entry `i − 1` of the table. -/
def relocate (env : Env) (dp : DataPlane) (x : Queue) (h : Nat) : CheckM Nat :=
  let i := bits h 15 0
  if h = 0 then .ok 0
  else if i = 0 || x.hent < i then .error (stHandleInvalid, EFault.plain stHandleInvalid)
  else match hubRead env dp x.fn false (x.htab + 16 * (i - 1)) 16 with
    | .error f => .error (stHandleInvalid, f)
    | .ok b =>
      if bit (fld b 0xA 1) 0 && fld b 8 2 = bits h 31 16 then .ok (fld b 0 6)
      else .error (stHandleInvalid, EFault.plain stHandleInvalid)

def relocateAll (env : Env) (dp : DataPlane) (x : Queue) : List Nat → CheckM (List Nat)
  | [] => .ok []
  | h :: r => do
    let a ← relocate env dp x h
    let as_ ← relocateAll env dp x r
    pure (a :: as_)

/-- Read the indirect block (R272). -/
def readIndirect (env : Env) (dp : DataPlane) (l : Launch) : CheckM Launch :=
  if !l.indctl then .ok l
  else match hubRead env dp l.part false l.indirect 8 with
    | .error f => .error (f.status, f)
    | .ok b => .ok { l with gx := fld b 0 2, gy := fld b 2 2, gz := fld b 4 2, skip := fld b 6 1 ≠ 0 }

/-- Header fields within range (R199, R200). -/
def programHeaderOk (a : Nat) (b : List Byte) : Bool :=
  fld b 0 4 = 0x50525946 && fld b 4 2 = 1 && zeros b 7 1 && zeros b 0x54 44 &&
  (List.range 8).all (fun i =>
    fld b (0x10 + 8 * i) 4 % 16 = 0 && fld b (0x14 + 8 * i) 4 ≤ 32768 &&
    a + fld b (0x10 + 8 * i) 4 + fld b (0x14 + 8 * i) 4 ≤ hbmSize)

/-- Read and check the program header (R199, R200). -/
def readHeader (env : Env) (dp : DataPlane) (l : Launch) : CheckM Launch :=
  if l.type ≠ .launch || l.skip then .ok l
  else if l.program % 128 ≠ 0 || hbmSize < l.program + 128 then .error (stProgramInvalid, EFault.plain stProgramInvalid)
  else match hubRead env dp l.part false l.program 128 with
    | .error f => .error (stProgramInvalid, f)
    | .ok b =>
      if programHeaderOk l.program b then
        .ok { l with
          wdogMs := if fld b 6 1 = 0 then 10 else fld b 6 1
          build := fld b 8 8
          sects := (List.range 8).map (fun i => (fld b (0x10 + 8 * i) 4, fld b (0x14 + 8 * i) 4))
          crc := fld b 0x50 4 }
      else .error (stProgramInvalid, EFault.plain stProgramInvalid)

/-- Checks 5 to 8 of R270, in order. -/
def waitsCheck (env : Env) (dp : DataPlane) (l : Launch) : CheckM Launch := do
  if l.waitErr dp.events then throw (stDependencyFailed, EFault.plain stDependencyFailed)
  let as_ ← match dp.stepAddrs l with
    | some as_ => .ok as_
    | none => relocateAll env dp (dp.queue l.q) l.handles
  let l ← readIndirect env dp { l with addrs := as_ }
  let l ← readHeader env dp l
  pure { l with stage := .ready }

/-- What the dispatcher reads for a record whose checks pass: handle entries, indirect block, program header. -/
def waitsReads (dp : DataPlane) (l : Launch) : List (Nat × Nat) :=
  (l.handles.filter (· ≠ 0)).map (fun h => ((dp.queue l.q).htab + 16 * (bits h 15 0 - 1), 16)) ++
  (if l.indctl then [(l.indirect, 8)] else []) ++ (if l.type = .launch && !l.skip then [(l.program, 128)] else [])

/-- LAUNCH_WAITS_MET (R270 to R273, R276). -/
def execLaunchWaitsMet (q seq : Nat) (s : State) : Out :=
  s.work (fun env dp =>
    match dp.launch q seq with
    | none => dp
    | some l =>
      if l.stage = .fetched && !l.aborting && l.waitsMet dp.events then
        match waitsCheck env dp l with
        | .ok l' => (hubUsedAll env dp l.part (waitsReads dp l')).modLaunch q seq (fun _ => l')
        | .error (st, f) => complete env (hubFault env dp l.part dispatcherId seq q f) l st
      else dp)

/-! ### Events -/

/-- EV_SIGNAL (R468). -/
def execEvSignal (fn : Nat) (v : U32) (s : State) : Out :=
  s.work (fun _ dp =>
    if fnExists dp fn then { dp with events := signalEvent stSuccess dp.events fn (bits v.toNat 10 0) } else dp)

/-- EV_ERR_CLEAR (R468): a 1 written to ERR clears it. -/
def execEvErrClear (fn e : Nat) (v : U32) (s : State) : Out :=
  s.work (fun _ dp =>
    if fnExists dp fn && e < 2048 && bit v.toNat 31 then
      { dp with events := SMap.modify Event.init dp.events (evKey fn e) (fun x => { x with err := false }) }
    else dp)

end Sys2Proof.Machine
end

