-- ==== Sys2Proof/Machine/Metering.lean ====
section
/-! DEFINITION. The metering block (R304 to R314): energy attribution, intervals, records, signing and reading. -/

namespace Sys2Proof.Machine

def DataPlane.setMeter (dp : DataPlane) (m : Meter) : DataPlane := { dp with meter := m }

/-- The interval in ns: 0 is taken as 1 s, above 60 as 60 s (R314). -/
def Meter.length (m : Meter) : Nat := max 1 (min 60 m.interval) * 1000000000

/-- The metering block starts (R306, R309, R412): the interval that holds the present time runs. -/
def Meter.start (m : Meter) (boot plumb : Nat) : Meter :=
  { m with boot := boot, running := true, curStart := plumb / m.length * m.length, curEnd := (plumb / m.length + 1) * m.length,
           measured := plumb }

def DataPlane.usage (dp : DataPlane) (p : Nat) : Usage := SMap.get Usage.init dp.meter.usage p
def DataPlane.openRec (dp : DataPlane) (p : Nat) : Option OpenRec := SMap.get none dp.meter.opened p

def DataPlane.setOpenRec (dp : DataPlane) (p : Nat) (r : OpenRec) : DataPlane :=
  dp.setMeter { dp.meter with opened := SMap.set none dp.meter.opened p (some r) }

/-- Partitions with an open record. -/
def openParts (dp : DataPlane) : List Nat := (List.range 17).filter (fun p => (dp.openRec p).isSome)

/-- Open a partition's record with its counters at 0 (R310). -/
def openRecord (plumb : Nat) (dp : DataPlane) (p : Nat) : DataPlane :=
  let m := dp.meter
  dp.setMeter { m with
    opened := SMap.set none m.opened p (some
      { start := plumb, partial_ := decide (m.curStart < plumb), stretched := false, unaligned := false, eMod := 0, ePart := 0,
        peak := 0, active := 0, tileNs := 0, grantNs := 0, grantAt := plumb })
    usage := SMap.set Usage.init m.usage p Usage.init }

/-! ### Memory granted (R311) -/

/-- Pages of HBM granted W to a class. -/
def writablePages (dp : DataPlane) (p : Nat) : List (Nat × Nat) :=
  ((List.range 64).map (fun i => SMap.get AclEntry.none dp.mem.acl (aclKey p 0 i))).filterMap (fun e =>
    if e.v && e.w then some (e.base, e.limit) else none)

/-- Insert a range by its base. -/
def insertRange (r : Nat × Nat) : List (Nat × Nat) → List (Nat × Nat)
  | [] => [r]
  | x :: l => if r.1 ≤ x.1 then r :: x :: l else x :: insertRange r l

/-- Pages of ranges in rising order of base that lie at or above `from_`: a page that two entries grant counts once. -/
def unionPages (from_ : Nat) : List (Nat × Nat) → Nat
  | [] => 0
  | (b, l) :: r => (l + 1 - max from_ b) + unionPages (max from_ (l + 1)) r

/-- How many pages of HBM a class is granted W. -/
def grantedPages (dp : DataPlane) (p : Nat) : Nat := unionPages 0 ((writablePages dp p).foldr insertRange [])

/-- Count the pages granted to a partition up to now; asked before its entries change. -/
def settleGrants (plumb : Nat) (dp : DataPlane) (p : Nat) : DataPlane :=
  match dp.openRec p with
  | none => dp
  | some r => dp.setOpenRec p { r with grantNs := r.grantNs + grantedPages dp p * (plumb - r.grantAt), grantAt := plumb }

/-! ### Attribution (R308) -/

/-- Tiles that the Scrim map leaves enabled. -/
def enabledTiles (dp : DataPlane) : Nat := ((List.range 168).filter dp.enabled).length

/-- A partition's share of the idle and the dynamic energy. -/
def energyShare (eIdle eDyn owned enabled act total : Nat) : Nat :=
  eIdle * owned / enabled + (if total = 0 then 0 else eDyn * act / total)

/-- Energy of each of 17 partitions: partition 0 takes what is left over. -/
def shareEnergy (eMod idleW tUs enabled : Nat) (parts : List (Nat × Nat × Nat)) : List (Nat × Nat) :=
  let eIdle := min eMod (idleW * tUs)
  let total := parts.foldl (fun n p => n + p.2.2) 0
  let es := parts.map (fun p => (p.1, energyShare eIdle (eMod - eIdle) p.2.1 enabled p.2.2 total))
  let sum := es.foldl (fun n e => n + e.2) 0
  es.map (fun e => if e.1 = 0 then (0, e.2 + (eMod - sum)) else e)

/-- Tiles that count as a partition's: in a drain until step 8 (R310). -/
def ownedTiles (dp : DataPlane) (p : Nat) : Nat :=
  if (dp.part p).st = .scrubbing || (dp.part p).st = .disabled then 0 else ((dp.part p).tiles.filter dp.enabled).length

/-- The partitions, with tiles owned and active cycles since the last attribution. -/
def meterParts (dp : DataPlane) : List (Nat × Nat × Nat) :=
  (List.range 17).map (fun p => (p, ownedTiles dp p, if (dp.part p).st = .disabled then 0 else Config.activeCycles dp.free p))

/-- What one attribution adds to a record. -/
structure Share where
  part : Nat
  eMod : Nat
  ePart : Nat
  peak : Nat
  active : Nat
  tileNs : Nat

/-- Add a share to the partition's open record. -/
def addShare (now : Nat) (dp : DataPlane) (x : Share) : DataPlane :=
  match (settleGrants now dp x.part).openRec x.part with
  | none => dp
  | some r => dp.setOpenRec x.part { r with
      eMod := r.eMod + x.eMod, ePart := r.ePart + x.ePart, peak := max r.peak x.peak, active := r.active + x.active,
      tileNs := r.tileNs + x.tileNs }

/-- Attribute the module energy since the last attribution (R308): its shares add up to it. -/
def meterShares (env : Env) (eMod peakW now : Nat) (dp : DataPlane) : DataPlane :=
  let ns := now - dp.meter.measured
  let parts := meterParts dp
  let shares := (parts.zip (shareEnergy eMod env.idleW (ns / 1000) (enabledTiles dp) parts)).map (fun x =>
    (⟨x.1.1, eMod, x.2.2, peakW, x.1.2.2, ns * x.1.2.1⟩ : Share))
  let dp := shares.foldl (addShare now) dp
  { dp with meter := { dp.meter with measured := now }, free := dp.free + 1 }

/-- Attribute up to a moment within an interval at which ownership changes or a record opens or closes (R308, R310; log
entry 71): the spec gives the measurement no value, so the module energy and the peak are free. -/
def attributeNow (env : Env) (dp : DataPlane) : DataPlane :=
  if dp.meter.measured = env.plumb then dp
  else meterShares env (Config.freeWord dp.free).toNat (bits (Config.freeWord (dp.free + 1)).toNat 31 0) env.plumb
    { dp with free := dp.free + 2 }

/-! ### Records (R311) -/

/-- The seal: UNSEALED outside PROVISIONED, BROKEN after a failed ADC check. -/
def sealOf (env : Env) (dp : DataPlane) : Nat := if env.lcs ≠ 2 then 1 else if dp.meter.broken then 2 else 0

/-- The 256-byte body, with PREV left for the signing. -/
def meterBody (env : Env) (dp : DataPlane) (p reason end_ pseq : Nat) (r : OpenRec) : List Byte :=
  let u := dp.usage p
  let bad := sealOf env dp = 2
  let e := fun n => if bad then 2 ^ 64 - 1 else n
  leBytes 4 0x4B564D31 ++ leBytes 2 1 ++ leBytes 1 p ++ leBytes 1 reason ++
  leBytes 1 (b2n r.stretched + 2 * b2n r.unaligned + 4 * b2n r.partial_) ++ leBytes 1 (sealOf env dp) ++ leBytes 1 env.lcs ++
  leBytes 1 0 ++ leBytes 4 dp.meter.boot ++ leBytes 8 dp.meter.seq ++ leBytes 8 pseq ++ leBytes 8 r.start ++ leBytes 8 end_ ++
  leBytes 8 (bits env.prov 47 0 + 2 ^ 48 * (env.cfg.id % 2 ^ 15)) ++ leBytes 8 (e r.eMod) ++ leBytes 8 (e r.ePart) ++
  leBytes 4 (if bad then 2 ^ 32 - 1 else r.peak) ++ leBytes 4 env.idleW ++ leBytes 8 (r.tileNs / 1000) ++
  leBytes 8 r.active ++ leBytes 8 u.mac4 ++ leBytes 8 u.mac8 ++
  leBytes 8 u.mac16 ++ leBytes 8 u.hbmRd ++ leBytes 8 u.hbmWr ++ leBytes 8 (r.grantNs / 256000000) ++
  leBytes 8 u.netRx ++ leBytes 8 u.netTx ++ leBytes 8 u.fabTx ++ leBytes 8 u.hostDma ++ leBytes 4 u.launches ++ leBytes 4 u.faults ++
  leBytes 8 0

/-- Close a partition's open record (R310): it takes the next SEQ and PSEQ and awaits its signature. -/
def closeRecord (env : Env) (reason end_ : Nat) (dp : DataPlane) (p : Nat) : DataPlane :=
  let dp := settleGrants end_ dp p
  match dp.openRec p with
  | none => dp
  | some r =>
    let m := dp.meter
    let pseq := SMap.get 0 m.pseq p + 1
    dp.setMeter { m with
      seq := m.seq + 1
      pseq := SMap.set 0 m.pseq p pseq
      opened := SMap.set none m.opened p none
      usage := SMap.set Usage.init m.usage p Usage.init
      closed := m.closed ++ [⟨m.seq, p, meterBody env dp p reason end_ pseq r⟩] }

/-- Records that turn over at a boundary: a partition's that does not drain (R310). -/
def turning (dp : DataPlane) : List Nat := (openParts dp).filter (fun p => (dp.part p).drain.isNone)

/-- Change every open record. -/
def eachRecord (f : OpenRec → OpenRec) (dp : DataPlane) : DataPlane :=
  (openParts dp).foldl (fun dp p => match dp.openRec p with
    | some r => dp.setOpenRec p (f r)
    | none => dp) dp

/-- Keep the records that would turn over open across the boundary (R312). -/
def stretch (dp : DataPlane) : DataPlane :=
  (turning dp).foldl (fun dp p => match dp.openRec p with
    | some r => dp.setOpenRec p { r with stretched := true }
    | none => dp) dp

/-- Close and reopen the records at a boundary. -/
def turnOver (env : Env) (at_ : Nat) (dp : DataPlane) : DataPlane :=
  (turning dp).foldl (fun dp p => openRecord at_ (closeRecord env 0 at_ dp p) p) dp

/-- METER_INTERVAL_BOUNDARY (R306, R308, R309, R312): the module energy since the last attribution is attributed; records
turn over, or stretch when the buffer has no room for them. The next interval is the first of the interval in METER_CTL.
The boundary is the interval's end, or the last one passed where the counter has been stepped beyond it (log entry 71). -/
def execMeterIntervalBoundary (eMod peakW : Nat) (adcBad : Bool) (s : State) : Out :=
  s.hub (fun s =>
    let env := s.env
    let m := s.dp.meter
    if !m.running || env.plumb < m.curEnd then s
    else
      let at_ := max m.curEnd (env.plumb / m.length * m.length)
      let dp := meterShares env eMod peakW at_ (s.dp.setMeter { m with broken := m.broken || adcBad })
      let dp := if env.aligned then dp else eachRecord (fun r => { r with unaligned := true }) dp
      let dp := dp.setMeter { dp.meter with curStart := at_, curEnd := (at_ / m.length + 1) * m.length }
      let full := 4096 < m.buffer.length + m.closed.length + (turning dp).length
      s.setDp (if full then stretch dp else turnOver env at_ dp))

/-- The signed body (R311): PREV and FWMEAS, over the metering firmware `fw`, complete it. -/
def sealBody (m : Meter) (fw : List Byte) (r : MRec) : List Byte :=
  r.body ++ SMap.get (List.replicate 32 0) m.prev r.part ++ shake32 fw

/-- Bytes of a buffered record: body and signature, 1,536 in all (R311). -/
def recordBytes (r : MRec) : List Byte := r.body ++ signature 1 r.body

/-- The metering firmware that runs: section METERFW of the verified image (R304, R414). -/
def State.meterFw (s : State) : List Byte := sectOf s.mg.boot.image 3

/-- METER_RECORD_SIGN (R311, R312): the oldest closed record is signed while the buffer has room and the key exists
(R439). A buffer that passes 3,072 records raises an in-band interrupt (R452). -/
def execMeterRecordSign (s : State) : Out :=
  s.hub (fun s =>
    let m := s.dp.meter
    match m.closed with
    | [] => s
    | r :: rest =>
      if !m.running || 4096 ≤ m.buffer.length || s.mg.fuses.keysDestroyed then s
      else
        let body := sealBody m s.meterFw r
        { s with
          mg := if m.buffer.length = 3072 then s.mg.raiseIbi 3 else s.mg
          dp := s.dp.setMeter { m with
            closed := rest
            buffer := m.buffer ++ [⟨r.seq, r.part, body⟩]
            prev := SMap.set (List.replicate 32 0) m.prev r.part (shake32 (recordBytes ⟨r.seq, r.part, body⟩)) } })

/-- METER_ACK (R314): PF0 frees every buffered record whose SEQ is at or below the value, modulo 2^32. -/
def execMeterAck (v : U32) (s : State) : Out :=
  s.hub (fun s =>
    let m := s.dp.meter
    if barDecodes s 0 0x24004 then
      { s with dp := s.dp.setMeter { m with buffer := m.buffer.filter (fun r => !(span32 v.toNat (r.seq % 2 ^ 32) < 2 ^ 31)) } }
    else s)

/-- METER_SEL (R314). -/
def execMeterSel (fn : Nat) (v : U32) (s : State) : Out :=
  s.hub (fun s =>
    if barDecodes s fn 0x1008 then { s with dp := s.dp.setMeter { s.dp.meter with sel := SMap.set 0 s.dp.meter.sel fn v.toNat } } else s)

/-- METER_WIN (R314): the selected record where the function may see it, else all zero. -/
def meterWindow (m : Meter) (fn : Nat) : List Byte :=
  match m.buffer.find? (fun r => r.seq % 2 ^ 32 = SMap.get 0 m.sel fn && (fn = 0 || r.part = fn)) with
  | some r => recordBytes r
  | none => List.replicate 1536 0

/-- METER_STATUS (R314). -/
def meterStatus (env : Env) (dp : DataPlane) (fn : Nat) : Nat :=
  let n := (dp.meter.buffer.filter (fun r => fn = 0 || r.part = fn)).length
  let stretched := (openParts dp).any (fun p => match dp.openRec p with
    | some r => r.stretched
    | none => false)
  sealOf env dp * 2 ^ 30 + b2n stretched * 2 ^ 29 + n * 2 ^ 16

end Sys2Proof.Machine
end

