-- ==== Sys2Proof/Machine/Launches.lean ====
section
/-! DEFINITION. The dispatcher's side of a launch: choice and dispatch (R274, R277, R278), timed launches (R279, R280),
program entry on a tile (R184, R200, R201), collection (R281, R282), and HUB records (R277). -/

namespace Sys2Proof.Machine

/-! ### Dispatch -/

/-- Base of a die's shared store. -/
def sharedBase (die : Nat) : Nat := 0x020000000000 + die * 0x10000000

/-- A 256-byte event block in the shared store of a die: the first of the arena's 256 that no launch in flight holds
(R197). -/
def eventBlock (dp : DataPlane) (die : Nat) : Nat :=
  let base := sharedBase die + 256 * (Config.eventArena die % (0x60000 - 256))
  let free := (List.range 256).find? (fun i => !dp.launches.any (fun l => l.evBlock = base + 256 * i))
  base + 256 * free.getD 0

/-- The launch block of R184. -/
def Launch.block (l : Launch) (ev : Nat) : List Byte :=
  l.const ++ l.addrs.flatMap (leBytes 8) ++ leBytes 8 l.indirect ++ leBytes 8 ev ++ leBytes 4 l.seq ++ leBytes 2 l.q ++
  leBytes 10 0

/-- What the broadcast gives the tile of a rank (R198, R200). -/
def Launch.forTile (l : Launch) (ev rank : Nat) : TileLaunch :=
  { q := l.q, seq := l.seq, part := l.part, rank := rank, gsize := l.tiles.length, gx := l.gx, gy := l.gy, gz := l.gz,
    program := l.program, build := l.build, sects := l.sects, crc := l.crc, evBlock := ev,
    startAt := if l.timed then some l.notBefore else none, wdogMs := l.wdogMs, block := l.block ev }

/-- Take the tiles and broadcast: the event block is zeroed, and each tree router records its count (R33, R197, R200). -/
def startLaunch (dp : DataPlane) (l : Launch) : DataPlane :=
  let ev := eventBlock dp (l.tiles.headD 0 / 84)
  let dp := { dp with mem := dp.mem.zero ev (ev + 256) }
  let dp := (l.tiles.zipIdx).foldl (fun dp t =>
    dp.setTile t.1 { dp.tile t.1 with phase := .entering, launch := some (l.forTile ev t.2) }) dp
  let dp := (treeRouters l.tiles).foldl (fun dp r =>
    dp.setSlots r (dp.slots r ++ [⟨l.q, l.seq, subtree l.tiles r, 0⟩])) dp
  dp.modLaunch l.q l.seq (fun y => { y with
    stage := .staged, evBlock := ev, expect := (List.range 2).filter (fun d => l.tiles.any (fun t => t / 84 = d)) })

/-- Dispatch a record that R277 lets go: a MARKER, a skipped record and an empty grid complete at once. -/
def dispatchRecord (env : Env) (dp : DataPlane) (l : Launch) : DataPlane :=
  let dp := { dp with served := SMap.set 0 dp.served l.prio (l.q + 1) }
  if l.skip then complete env dp l stSkipped
  else if l.usesTiles then startLaunch dp l
  else complete env dp l stSuccess

/-- Dispatch the record if it is the dispatcher's choice now. -/
def tryDispatch (env : Env) (dp : DataPlane) (q seq : Nat) : DataPlane :=
  match firstChoice env dp with
  | some l => if l.q = q && l.seq = seq then dispatchRecord env dp l else dp
  | none => dp

/-- LAUNCH_DISPATCH (R277). -/
def execLaunchDispatch (q seq : Nat) (s : State) : Out := s.work (fun env dp => tryDispatch env dp q seq)

/-- TIMED_STAGING_OPEN (R279): the window opens at T − STAGE_LEAD, and the launch is staged when R277 holds. -/
def execTimedStagingOpen (q seq : Nat) (s : State) : Out :=
  s.work (fun env dp =>
    match dp.launch q seq with
    | none => dp
    | some l =>
      if l.timed && l.type = .launch && l.stage = .ready && !l.aborting &&
          l.notBefore ≤ env.plumb + (dp.queue q).stageLead * 1000 then
        tryDispatch env (dp.modLaunch q seq (fun y => { y with stage := .window })) q seq
      else dp)

/-- HUB_RECORD_HANDOFF (R277, R303): the first choice among HUB records whose waits, time and queue order hold goes to its
engine's queue; one with SKIP set completes. -/
def execHubRecordHandoff (q seq : Nat) (s : State) : Out :=
  s.work (fun env dp =>
    match firstHub env dp with
    | none => dp
    | some l =>
      if l.q = q && l.seq = seq then
        let dp := { dp with served := SMap.set 0 dp.served l.prio (l.q + 1) }
        if l.skip then complete env dp l stSkipped
        else { dp with hubQueue := dp.hubQueue ++ [(q, seq)] }.modLaunch q seq (fun y => { y with
          stage := .engine, start := some env.plumb, expect := [2] })
      else dp)

/-- Whether a collective or snapshot engine has a record in progress. -/
def Coll.holds (c : Coll) (q seq : Nat) : Bool :=
  c.ops.any (fun o => o.q = q && o.seq = seq) || c.snaps.any (fun o => o.q = q && o.seq = seq) ||
  c.groups.any (fun g => match g.2 with
    | some g => !g.ready && g.createQ = q && g.createSeq = seq
    | none => false)

/-- A hub engine works on a record. -/
def hubBusy (dp : DataPlane) (q seq : Nat) : Bool :=
  dp.coll.holds q seq || dp.net.nvmeOps.any (fun o => o.q = q && o.seq = seq)

/-- The record that the hub engine of a GROUP code begins next: the first in its queue that it has not begun (R277). -/
def hubNext (dp : DataPlane) (group : Nat) : Option (Nat × Nat) :=
  dp.hubQueue.find? (fun x => !hubBusy dp x.1 x.2 && (match dp.launch x.1 x.2 with
    | some l => l.group = group && !l.aborting
    | none => false))

/-! ### Entry on a tile -/

/-- Offset of the program region and of the launch block in a tile core's window (R183). -/
def programOff : Nat := 0x4000
def blockOff : Nat := 0x10000

/-- The launch has begun: its START, and LATE when a timed launch starts more than 1 µs after T (R280, R283). -/
def Launch.begun (plumb : Nat) (l : Launch) : Launch :=
  if l.stage = .staged then
    { l with stage := .running, start := some plumb, late := l.timed && l.notBefore + 1000 < plumb }
  else l

/-- Start the cores that have a section at byte 0 of their program regions, or arm them until T (R200, R279, R280). -/
def startCores (env : Env) (dp : DataPlane) (t : Nat) (l : TileLaunch) : DataPlane :=
  let x := dp.tile t
  let wait := match l.startAt with
    | some at_ => decide (env.plumb < at_)
    | none => false
  let x := (List.range 8).foldl (fun (x : Tile) c =>
    let k := x.core c
    if (l.sects.getD c (0, 0)).2 = 0 then x.setCore c { k with st := .idle }
    else x.setCore c { k with pc := privBase + programOff, st := if wait then .armed else .running, issued := 0,
                              nextBlk := 0, wdStart := env.plumb }) x
  let dp := dp.setTile t { x with phase := if wait then .armed (l.startAt.getD 0) else .running }
  if wait then dp else dp.modLaunch l.q l.seq (·.begun env.plumb)

/-- TILE_LAUNCH_ENTRY (R106, R161, R184, R193, R200): tokens, statistics, caches and the fault record are cleared, the
launch block goes into each started core, and the cores start when the resident program has the launch's tag. The count of
invalid ternary bytes starts again here (log entry 63). -/
def execTileLaunchEntry (t : Nat) (s : State) : Out :=
  s.work (fun env dp =>
    let x := dp.tile t
    match x.launch with
    | none => dp
    | some l =>
      if x.phase = .entering then
        let y := { x.invalidate with tokens := [], slots := [], tlb := [], packBad := 0, patchBlocks := [], fault := none,
                                     reported := false }
        let y := (List.range 8).foldl (fun (y : Tile) c =>
          if (l.sects.getD c (0, 0)).2 = 0 then y
          else y.setCore c { y.core c with mem := writeBytes (y.core c).mem blockOff l.block }) y
        if x.tag = some (l.program, l.build) then startCores env (dp.setTile t y) t l
        else dp.setTile t { y with phase := .needProgram }
      else dp)

/-- The sections of an image, in stream order (R199, R200). -/
def readSections (env : Env) (dp : DataPlane) (l : TileLaunch) : List (Nat × Nat) → Except EFault (List (List Byte))
  | [] => .ok []
  | (off, n) :: r => do
    let b ← hubRead env dp l.part false (l.program + off) n
    let bs ← readSections env dp l r
    pure (b :: bs)

/-- The tiles of a launch on a die. -/
def launchTiles (dp : DataPlane) (q seq die : Nat) : List Nat :=
  ((List.range 84).map (· + 84 * die)).filter (fun t => match (dp.tile t).launch with
    | some l => l.q = q && l.seq = seq
    | none => false)

/-- Each core with a section writes it, and the tile checks the image's CRC (R200). -/
def deliverProgram (env : Env) (bs : List (List Byte)) (dp : DataPlane) (t : Nat) : DataPlane :=
  let x := dp.tile t
  match x.launch with
  | none => dp
  | some l =>
    let y := (bs.zipIdx).foldl (fun (y : Tile) b =>
      if b.1.isEmpty then y
      else y.setCore b.2 { y.core b.2 with mem := writeBytes (y.core b.2).mem programOff b.1 }) x
    if crc32 bs.flatten = l.crc then startCores env (dp.setTile t { y with tag := some (l.program, l.build) }) t l
    else dp.setTile t ({ y with tag := none }.faultStop ⟨stProgramInvalid, 0, 0, 0, 0, env.plumb⟩)

/-- PROGRAM_MULTICAST (R200): once every tile of the launch on the tile's die has compared its tag, each section is read once
and goes to all those whose tag does not match. -/
def execProgramMulticast (t : Nat) (s : State) : Out :=
  s.work (fun env dp =>
    let x := dp.tile t
    match x.launch with
    | none => dp
    | some l =>
      let ts := launchTiles dp l.q l.seq (t / 84)
      let need := ts.filter (fun n => (dp.tile n).phase = .needProgram)
      if need.contains t && ts.all (fun n => (dp.tile n).phase ≠ .entering) then
        match readSections env dp l l.sects with
        | .error f =>
          let dp := hubFault env dp l.part dispatcherId l.seq l.q f
          need.foldl (fun dp n => dp.setTile n ((dp.tile n).faultStop ⟨f.status, 0, 0, 0, f.address, env.plumb⟩)) dp
        | .ok bs =>
          need.foldl (deliverProgram env bs) (hubUsedAll env dp l.part (l.sects.map (fun x => (l.program + x.1, x.2))))
      else dp)

/-- TIMED_CORE_START (R280): an armed core starts once its tile's Plumb counter has reached T. -/
def execTimedCoreStart (t c : Nat) (s : State) : Out :=
  s.work (fun env dp =>
    let x := dp.tile t
    match x.launch with
    | none => dp
    | some l =>
      if c < 8 && (x.core c).st = .armed && l.startAt.getD 0 ≤ env.plumb then
        (dp.setTile t { x.setCore c { x.core c with st := .running, wdStart := env.plumb } with phase := .running }).modLaunch
          l.q l.seq (·.begun env.plumb)
      else dp)

/-! ### Collection -/

/-- Count a token: a record is collected when its last expected token has been counted (R281, R282). -/
def Launch.count (l : Launch) (src : Nat) : Launch :=
  let ts := src :: l.tokens
  { l with tokens := ts, stage := if l.expect.all (fun e => ts.contains e) then .counted else l.stage }

/-- A hub engine ends a record: its token goes to the collector (R277, R281). -/
def hubEnd (dp : DataPlane) (q seq : Nat) (fault : Option Nat) : DataPlane :=
  let dp := match fault with
    | some st => dp.modLaunch q seq (fun l => { l with fault := some (l.fault.getD ⟨st, 0xFFFF, 0, 0⟩) })
    | none => dp
  { dp with
    collector := dp.collector ++ [(q, seq, 2)]
    hubQueue := dp.hubQueue.filter (fun x => !(x.1 = q && x.2 = seq)) }

/-- Put a collected launch in the order of completion records: the order of counting, and within one collector cycle, which
the model takes to be one nanosecond of Plumb time, ascending queue and sequence (R282; log entry 30). -/
def collectAfter (x : Nat × Nat × Nat) : List (Nat × Nat × Nat) → List (Nat × Nat × Nat)
  | [] => [x]
  | y :: r =>
    if x.1 = y.1 && (x.2.1 < y.2.1 || (x.2.1 = y.2.1 && x.2.2 < y.2.2)) then x :: y :: r else y :: collectAfter x r

/-- COLLECTOR_TOKEN (R281, R282): one of the first 512 tokens, which hold the credits, is counted. -/
def execCollectorToken (q seq src : Nat) (s : State) : Out :=
  s.work (fun env dp =>
    if (dp.collector.take 512).contains (q, seq, src) then
      let dp := { dp with collector := dp.collector.erase (q, seq, src) }.modLaunch q seq (·.count src)
      match dp.launch q seq with
      | some l => if l.stage = .counted then { dp with collected := collectAfter (env.plumb, q, seq) dp.collected } else dp
      | none => dp
    else dp)

/-- Every tile of a launch has stopped or has ended its share, with every write to another module performed (R203, R249,
R282). -/
def tilesDone (dp : DataPlane) (l : Launch) : Bool :=
  l.tiles.all (fun t => match (dp.tile t).launch with
    | some y => !(y.q = l.q && y.seq = l.seq) || ((dp.tile t).phase = .stopped && !tileWritesOut dp t)
    | none => true)

/-- A launch that can be completed: counted, or failed with every tile stopped (R282). -/
def collectable (dp : DataPlane) (l : Launch) : Bool :=
  l.stage = .counted || (l.aborting && (l.stage = .staged || l.stage = .running) && tilesDone dp l)

/-- A record that an ABORT stops completes at ABORT_FINISH (R286). -/
def leftToAbort (dp : DataPlane) (l : Launch) : Bool := (dp.queue l.q).st = .aborting && l.final = stAborted

/-- A counted launch is next in the order of completion records (R282). -/
def collectedNext (dp : DataPlane) (l : Launch) : Bool :=
  l.stage ≠ .counted ||
  (dp.collected.find? (fun x => match dp.launch x.2.1 x.2.2 with
    | some y => !leftToAbort dp y
    | none => false)).all (fun x => x.2.1 = l.q && x.2.2 = l.seq)

/-- LAUNCH_COLLECTED (R249, R282 to R284). A record that an ABORT stops completes at ABORT_FINISH. The mean power of a
launch is kept for its program tag (R376). -/
def execLaunchCollected (q seq : Nat) (s : State) : Out :=
  match s.dp.launch q seq with
  | none => .next s
  | some l =>
    if s.env.serving && collectable s.dp l && !leftToAbort s.dp l && collectedNext s.dp l then
      let sh := s.fb.shape
      let power := if l.type = .launch then
          ((l.program, l.build), Config.meanPower s.dp.free) :: sh.lastPower.filter (fun x => x.1 ≠ (l.program, l.build))
        else sh.lastPower
      let dp := if l.final = stAborted then s.dp.setQueue q { s.dp.queue q with cmdCount := (s.dp.queue q).cmdCount + 1 } else s.dp
      .next { s with
        dp := { complete s.env dp l l.final with free := (complete s.env dp l l.final).free + 1 }
        fb := { s.fb with shape := { sh with lastPower := power } } }
    else .next s

end Sys2Proof.Machine
end

