-- ==== Sys2Proof/Machine/Groups.lean ====
section
/-! DEFINITION. Fabric groups (R379 to R382, R396): create, power-feed answers, destroy and remap. -/

namespace Sys2Proof.Machine

def DataPlane.group (dp : DataPlane) (n : Nat) : Option Group := SMap.get none dp.coll.groups n
def DataPlane.setGroup (dp : DataPlane) (n : Nat) (g : Option Group) : DataPlane :=
  { dp with coll := { dp.coll with groups := SMap.set none dp.coll.groups n g } }

def collectiveMaster : Nat := 0x601
def snapshotMaster : Nat := 0x602

/-- A HUB record that an engine of these groups holds and begins next. -/
def hubHeld (dp : DataPlane) (q seq : Nat) (groups : List Nat) : Option Launch :=
  match dp.launch q seq with
  | none => none
  | some l =>
    if l.stage = .engine && !l.aborting && groups.contains l.group && !dp.collector.contains (q, seq, 2) &&
        hubNext dp l.group = some (q, seq) then some l else none

/-- A number in the partition's range of the group table (R379). -/
def groupInRange (dp : DataPlane) (p n : Nat) : Bool :=
  let x := dp.part p
  n < 1024 && x.fgbase ≤ n && n < x.fgbase + x.fgroups

/-- The entry of a group that a partition may use. -/
def usableGroup (dp : DataPlane) (p n : Nat) (snap : Bool) : Option Group :=
  match dp.group n with
  | some g => if groupInRange dp p n && g.part = p && g.snap = snap && g.ready then some g else none
  | none => none

/-- Run a collective-engine command on the record that it holds: the record's OP must be the command's. An OP that
R380 to R383 do not list ends the record with RECORD_INVALID. -/
def withColl (dp : DataPlane) (q seq op : Nat) (f : Launch → DataPlane) : DataPlane :=
  match hubHeld dp q seq [1] with
  | none => dp
  | some l =>
    if dp.coll.holds q seq then dp
    else if fld l.const 0 1 = op then f l
    else if 1 ≤ fld l.const 0 1 && fld l.const 0 1 ≤ 4 then dp
    else hubEnd dp q seq (some stRecordInvalid)

/-! ### Create -/

/-- GDIG (R381). -/
def gdigOf (gnum kind ndim : Nat) (dims : List Nat) (chunk k m : Nat) (members : List Nat) : List Byte :=
  (shake32 (leBytes 2 gnum ++ leBytes 1 kind ++ leBytes 1 ndim ++ dims.flatMap (leBytes 2) ++ leBytes 1 chunk ++ leBytes 1 k ++
    leBytes 1 m ++ members.flatMap (leBytes 2))).take 4

def Group.digest (g : Group) (gnum : Nat) : List Byte :=
  gdigOf gnum (b2n g.snap) g.ndim g.dims g.chunk g.k g.m g.members

/-- Ring sizes of a descriptor. -/
def descDims (b : List Byte) : List Nat := [fld b 4 2, fld b 6 2, fld b 8 2]

/-- P (R380). -/
def descP (b : List Byte) : Nat := (descDims b).foldl (· * ·) 1

/-- Descriptor fields in range (R380). -/
def groupDescOk (b : List Byte) : Bool :=
  let kind := fld b 2 1
  let ndim := fld b 3 1
  let p := descP b
  kind ≤ 1 && 1 ≤ ndim && ndim ≤ 3 && (descDims b).all (fun d => 1 ≤ d) &&
  ((descDims b).drop ndim).all (fun d => d = 1) && fld b 0xA 2 < p && fld b 0xC 1 ≤ 8 && fld b 0xF 1 ≤ 1 &&
  fld b 0x10 8 % 16 = 0 && (fld b 0x18 4 = 0 || (10 ≤ fld b 0x18 4 && fld b 0x18 4 ≤ 60000)) && zeros b 0x1C 4 && zeros b 0x38 8 &&
  (if kind = 0 then 2 ≤ p && p ≤ 32768 && fld b 0xD 1 = 0 && fld b 0xE 1 = 0
   else ndim = 1 && 1 ≤ fld b 0xD 1 && fld b 0xD 1 ≤ 16 && 1 ≤ fld b 0xE 1 && fld b 0xE 1 ≤ 2 && p = fld b 0xD 1 + fld b 0xE 1 &&
     fld b 0x20 8 % 4096 = 0 && fld b 0x28 8 % 4096 = 0 && 8192 ≤ fld b 0x28 8 && fld b 0x30 8 % 4096 = 0)

/-- Device IDs of a member array. -/
def membersOf (bs : List Byte) (p : Nat) : List Nat := (List.range p).map (fun i => fld bs (2 * i) 2)

/-- No ID appears twice. -/
def distinct : List Nat → Bool
  | [] => true
  | x :: r => !r.contains x && distinct r

/-- Members are in the system, differ, and this module stands at RANK (R381). -/
def membersOk (c : FabCfg) (rank : Nat) (ms : List Nat) : Bool :=
  ms.all (fun i => !bit i 15 && idInSystem c i) && distinct ms && ms.getD rank 0x8000 = c.id

/-- The entry that a descriptor and member array make. -/
def groupOf (p q seq : Nat) (b : List Byte) (ms : List Nat) : Group :=
  let g : Group := {
    part := p, snap := fld b 2 1 = 1, ndim := fld b 3 1, dims := descDims b, rank := fld b 0xA 2, chunk := fld b 0xC 1,
    k := fld b 0xD 1, m := fld b 0xE 1, permitFeed := bit (fld b 0xF 1) 0, members := ms,
    collTo := if fld b 0x18 4 = 0 then 10000 else fld b 0x18 4, slots := fld b 0x20 8, slotLen := fld b 0x28 8,
    ring := fld b 0x30 8, gdig := [], nextOp := 1, feedExposed := false, ready := fld b 2 1 = 0, feeds := [],
    createQ := q, createSeq := seq }
  { g with gdig := g.digest (fld b 0 2) }

/-- Members of which any one feed holds more than M (R396). -/
def feedCrowded (g : Group) : Bool :=
  g.feeds.any (fun x => g.m < (g.feeds.filter (fun y => y.2 = x.2)).length)

/-- Telemetry of feed-exposed snapshot groups (R396, R470). -/
def countExposed (dp : DataPlane) : DataPlane :=
  let n := (dp.coll.groups.filter (fun g => match g.2 with
    | some g => g.feedExposed
    | none => false)).length
  { dp with telem := SMap.set 0 dp.telem 0x150 n }

/-- A snapshot group whose members have all answered is made, or fails with FEED_CONFLICT (R396). -/
def settleFeeds (dp : DataPlane) (gnum : Nat) (g : Group) : DataPlane :=
  if g.feeds.length < g.members.length then dp.setGroup gnum (some g)
  else if feedCrowded g && !g.permitFeed then hubEnd (dp.setGroup gnum none) g.createQ g.createSeq (some stFeedConflict)
  else hubEnd (countExposed (dp.setGroup gnum (some { g with ready := true, feedExposed := feedCrowded g })))
    g.createQ g.createSeq none

/-- Store a group; a snapshot group first asks every other member for its feed (R396). -/
def storeGroup (env : Env) (dp : DataPlane) (gnum : Nat) (g : Group) : DataPlane :=
  if !g.snap then hubEnd (dp.setGroup gnum (some g)) g.createQ g.createSeq none
  else
    let dp := (g.members.filter (· ≠ env.cfg.id)).foldl (fun dp m => dp.send "feed-query" m [gnum] []) dp
    settleFeeds dp gnum { g with feeds := [(env.cfg.id, env.cfg.feed)] }

/-- GROUP_CREATE (R380, R381). -/
def execGroupCreate (q seq : Nat) (s : State) : Out :=
  s.work (fun env dp => withColl dp q seq 1 (fun l =>
    match fabRead env dp l.part (l.addrs.headD 0) 64 with
    | .error f => hubEnd (hubFault env dp l.part collectiveMaster seq q f) q seq (some f.status)
    | .ok b =>
      let gnum := fld b 0 2
      if !zeros l.const 1 159 || !groupInRange dp l.part gnum || (dp.group gnum).isSome || !groupDescOk b then
        hubEnd dp q seq (some stGroupInvalid)
      else match fabRead env dp l.part (fld b 0x10 8) (2 * descP b) with
        | .error f => hubEnd (hubFault env dp l.part collectiveMaster seq q f) q seq (some stGroupInvalid)
        | .ok bs =>
          let ms := membersOf bs (descP b)
          if membersOk env.cfg (fld b 0xA 2) ms then storeGroup env dp gnum (groupOf l.part q seq b ms)
          else hubEnd dp q seq (some stGroupInvalid)))

/-- A group whose create waits for feed answers. -/
def creating (dp : DataPlane) (gnum : Nat) : Option Group :=
  match dp.group gnum with
  | some g => if g.ready then none else some g
  | none => none

/-- FEED_ID_RESPONSE (R396). -/
def execFeedIdResponse (gnum member feed : Nat) (s : State) : Out :=
  s.work (fun _ dp =>
    match creating dp gnum with
    | none => dp
    | some g =>
      if g.members.contains member && !g.feeds.any (fun f => f.1 = member) then
        settleFeeds dp gnum { g with feeds := g.feeds ++ [(member, feed)] }
      else dp)

/-- FEED_QUERY_TIMEOUT (R396): a member has not answered within 10 ms. -/
def execFeedQueryTimeout (gnum : Nat) (s : State) : Out :=
  s.work (fun _ dp =>
    match creating dp gnum with
    | none => dp
    | some g => hubEnd (dp.setGroup gnum none) g.createQ g.createSeq (some stGroupInvalid))

/-! ### Destroy and remap -/

/-- Operations of a group that its engine holds (R381, R382): records on GNUM that have not ended. -/
def groupOps (dp : DataPlane) (gnum : Nat) : List Launch :=
  dp.launches.filter (fun l =>
    l.type = .hub && l.stage = .engine && (l.group = 1 || l.group = 2) && fld l.const 2 2 = gnum &&
    (l.group = 2 || fld l.const 0 1 = 4) && !dp.collector.contains (l.q, l.seq, 2))

/-- Forget the abort notices kept for a group, whose OPSEQ starts anew. -/
def dropNotices (dp : DataPlane) (gnum : Nat) : DataPlane :=
  { dp with coll := { dp.coll with notices := dp.coll.notices.filter (fun n => n.1 ≠ gnum) } }

/-- GROUP_DESTROY (R381). -/
def execGroupDestroy (q seq : Nat) (s : State) : Out :=
  s.work (fun _ dp => withColl dp q seq 2 (fun l =>
    let gnum := fld l.const 2 2
    let known := (usableGroup dp l.part gnum false).isSome || (usableGroup dp l.part gnum true).isSome
    if known && (groupOps dp gnum).isEmpty then hubEnd (countExposed (dropNotices (dp.setGroup gnum none) gnum)) q seq none
    else hubEnd dp q seq (some stGroupInvalid)))

/-- GROUP_REMAP (R382): the replacement is scheduled for T_r, and the record completes. -/
def execGroupRemap (q seq : Nat) (s : State) : Out :=
  s.work (fun _ dp => withColl dp q seq 3 (fun l =>
    let r : Remap := ⟨l.part, fld l.const 4 2, fld l.const 6 2, fld l.const 8 8⟩
    hubEnd { dp with coll := { dp.coll with remaps := dp.coll.remaps ++ [r] } } q seq none))

/-- A group after a remap: the member keeps its rank, and OPSEQ starts again at 1 (R382, R383). -/
def Group.remap (g : Group) (gnum : Nat) (r : Remap) : Group :=
  let g' := { g with members := g.members.map (fun m => if m = r.old then r.new else m), nextOp := 1 }
  { g' with gdig := g'.digest gnum }

/-- The groups that a remap changes. -/
def remapped (dp : DataPlane) (r : Remap) : List (Nat × Group) :=
  dp.coll.groups.filterMap (fun x => match x.2 with
    | some g => if g.part = r.part && g.members.contains r.old then some (x.1, g) else none
    | none => none)

/-- An operation leaves its engine. -/
def dropHub (dp : DataPlane) (q seq : Nat) : DataPlane :=
  { dp with coll := { dp.coll with
      ops := dp.coll.ops.filter (fun o => !(o.q = q && o.seq = seq))
      snaps := dp.coll.snaps.filter (fun o => !(o.q = q && o.seq = seq)) } }

end Sys2Proof.Machine
end

