-- ==== Sys2Proof/Machine/Net.lean ====
section
/-! DEFINITION. The Ethernet ports (R315, R316), RDMA queue pairs and memory keys (R317 to R321, R471, R472), and the
ingress and egress rings of resident services as they meet the network (R332 to R334). -/

namespace Sys2Proof.Machine

/-! ### Ports -/

def DataPlane.setNet (dp : DataPlane) (n : Net) : DataPlane := { dp with net := n }

/-- MAC address of a port (R315): 0x02 and the provisioned ID's low 40 bits, with bit 0 of the last byte set to the port. -/
def portMac (prov port : Nat) : List Byte :=
  BitVec.ofNat 8 2 :: (leBytes 5 (bits prov 39 1 * 2 + port % 2)).reverse

/-- An entry of a port's source-address table (R316). -/
def srcEntryOf (b : List Byte) : SrcEntry :=
  let fam := fld b 0 1
  let ok := ((fam = 4 && fld b 1 1 ≤ 32 && zeros b 8 12) || (fam = 6 && fld b 1 1 ≤ 128)) && !bit (fld b 2 2) 12 &&
    fld b 4 1 ≤ 16 && zeros b 5 3 && zeros b 0x18 8
  if ok then ⟨fam, fld b 1 1, fld b 2 2, fld b 4 1, (b.drop 8).take 16⟩ else SrcEntry.init

def DataPlane.srcEntry (dp : DataPlane) (port i : Nat) : SrcEntry := SMap.get SrcEntry.init dp.net.srctab (port * 32 + i)

/-- Table base and size of a register pair laid out as NET_KEYTAB (R471). -/
def tableBase (lo hi : Nat) : Nat := bits lo 31 4 * 16 + bits hi 15 0 * 2 ^ 32
def tableSize (hi limit : Nat) : Nat := min (bits hi 28 16) limit

/-- The port's table holds an address on a VLAN (R316). -/
def portAnswers (dp : DataPlane) (port vlan fam : Nat) (ip : List Byte) : Bool :=
  (List.range 32).any (fun i =>
    let e := dp.srcEntry port i
    e.family = fam && bits e.vlan 11 0 = vlan && (if fam = 4 then e.addr.drop 12 else e.addr) = ip)

/-- A frame that hub firmware sends. -/
def frameOut (dp : DataPlane) (kind : String) (port : Nat) (args : List Nat) (data : List Byte) : DataPlane :=
  dp.setNet { dp.net with out := dp.net.out ++ [{ kind := kind, dest := port, args := args, data := data }] }

/-- ARP_REQUEST (R315, R316): answered only for an address in the port's table on its VLAN. -/
def execArpRequest (port vlan : Nat) (ip mac : List Byte) (s : State) : Out :=
  s.work (fun env dp =>
    if port < 2 && portAnswers dp port vlan 4 ip then frameOut dp "arp-reply" port [vlan] (portMac env.prov port ++ ip ++ mac) else dp)

/-- NEIGHBOR_SOLICITATION (R315, R316). -/
def execNeighborSolicitation (port vlan : Nat) (ip mac : List Byte) (s : State) : Out :=
  s.work (fun env dp =>
    if port < 2 && portAnswers dp port vlan 6 ip then
      frameOut dp "neighbor-advertisement" port [vlan] (portMac env.prov port ++ ip ++ mac)
    else dp)

/-- ICMP_ECHO (R315): answered with its payload for an address of the port. -/
def execIcmpEcho (port vlan : Nat) (ip mac payload : List Byte) (s : State) : Out :=
  s.work (fun env dp =>
    if port < 2 && (portAnswers dp port vlan 4 ip || portAnswers dp port vlan 6 ip) then
      frameOut dp "echo-reply" port [vlan] (portMac env.prov port ++ ip ++ mac ++ payload)
    else dp)

/-- FRAME_DROP (R315, R470): every other frame is dropped and counted. -/
def execFrameDrop (port : Nat) (s : State) : Out :=
  s.hub (fun s => if port < 2 then { s with dp := s.dp.count (0x138 + 8 * port) 1 } else s)

/-! ### Queue pairs -/

def DataPlane.qp (dp : DataPlane) (n : Nat) : Option Qp := SMap.get none dp.net.qps n
def DataPlane.setQp (dp : DataPlane) (n : Nat) (x : Option Qp) : DataPlane :=
  dp.setNet { dp.net with qps := SMap.set none dp.net.qps n x }

/-- A queue pair in the error state. -/
def Qp.fail (x : Qp) : Qp := { x with st := .error, sent := 0 }

/-- Move a queue pair to the error state (R318, R321, R472): its outbound work completes with flush errors, also what waits
for a pause to end. -/
def failQp (dp : DataPlane) (n : Nat) : DataPlane :=
  match dp.qp n with
  | some x => (dp.setNet { dp.net with held := dp.net.held.filter (fun m => m.2.dest ≠ n) }).setQp n (some x.fail)
  | none => dp

/-- Addresses of a queue pair's packets (R316, R472): the source-address entry that it names, and for RC its peer. The peer
of a UD packet is not in the descriptor. -/
def Qp.head (dp : DataPlane) (n : Nat) (x : Qp) : NetHead :=
  let e := dp.srcEntry (n / 512) x.src
  if x.ud then ⟨e.addr, e.vlan, [], [], 0⟩
  else ⟨e.addr, e.vlan, (x.desc.drop 0x30).take 6, (x.desc.drop 0x18).take 16, fld x.desc 8 4⟩

/-- Send on a queue pair: held while PFC pauses its priority (R320). A request on an RC pair awaits an acknowledgement; one
on a pair in the error state is flushed (R321). -/
def netSend (dp : DataPlane) (n : Nat) (kind : String) (request : Bool) (args : List Nat) (data : List Byte) : DataPlane :=
  match dp.qp n with
  | none => dp
  | some x =>
    if request && x.st = .error then dp
    else
      let m : NetMsg := ⟨kind, n, args, data, some (x.head dp n)⟩
      let key := n / 512 * 8 + x.prio
      let net := if SMap.get false dp.net.paused key then { dp.net with held := dp.net.held ++ [(key, m)] }
        else { dp.net with out := dp.net.out ++ [m] }
      let dp := (dp.setNet net).addUsage x.part (fun u => { u with netTx := u.netTx + data.length })
      if request && !x.ud then dp.setQp n (some { x with sent := x.sent + 1 }) else dp

/-- A packet for a queue pair arrives (R320): its priority's receive buffer fills to a level that the spec leaves open, and
the module sends a PFC pause when that passes 75 %. -/
def rxArrive (dp : DataPlane) (n : Nat) : DataPlane :=
  match dp.qp n with
  | none => dp
  | some x =>
    let key := n / 512 * 8 + x.prio
    let level := (Config.freeWord dp.free).toNat % 101
    let old := SMap.get 0 dp.net.rxFill key
    let dp := { dp with net := { dp.net with rxFill := SMap.set 0 dp.net.rxFill key level }, free := dp.free + 1 }
    if old ≤ 75 && 75 < level then frameOut dp "pfc-pause" (n / 512) [x.prio] [] else dp

/-- PFC_PAUSE (R320): the priority's messages are held, and go out in order when it ends. -/
def execPfcPause (port prio : Nat) (on : Bool) (s : State) : Out :=
  s.work (fun _ dp =>
    let key := port * 8 + prio
    if 2 ≤ port || 8 ≤ prio then dp
    else if on then dp.setNet { dp.net with paused := SMap.set false dp.net.paused key true }
    else dp.setNet { dp.net with
      paused := SMap.set false dp.net.paused key false
      held := dp.net.held.filter (fun m => m.1 ≠ key)
      out := dp.net.out ++ (dp.net.held.filter (fun m => m.1 = key)).map (·.2) })

/-- Write RESULT of a command register that is laid out as QCMD; its QUEUE field keeps its value (R11, R285). -/
def commandResult (dp : DataPlane) (fn off result : Nat) : DataPlane :=
  dp.setRegWord fn off (result * 2 ^ 16 + bits (dp.regWord fn off) 15 8 * 2 ^ 8)

/-- QP_CMD's result and argument (R317, R463). -/
def qpResult (dp : DataPlane) (fn result : Nat) : DataPlane := commandResult dp fn 0x4010 result
def qpArg (dp : DataPlane) (fn : Nat) : Bool × Nat :=
  (bit (dp.regWord fn 0x4018) 31, bits (dp.regWord fn 0x4018) 30 0 * 2 ^ 32 + dp.regWord fn 0x4014)

/-- Queue pairs that a partition holds, and its quota (R471). -/
def qpUsed (dp : DataPlane) (p : Nat) : Nat :=
  (dp.net.qps.filter (fun x => match x.2 with
    | some q => q.part = p
    | none => false)).length
def qpQuota (dp : DataPlane) (p : Nat) : Nat := min (bits (dp.regWord 0 (0x22300 + 4 * p)) 10 0) 1024

/-- Field ranges of the descriptor of R472. -/
def qpDescOk (b : List Byte) : Bool :=
  fld b 0 2 < 512 && fld b 2 1 < 2 && fld b 3 1 < 2 && fld b 4 1 ≤ 4 && fld b 5 1 ≤ 2 && fld b 6 1 ≤ 7 && fld b 7 1 ≤ 1 &&
  fld b 8 4 < 2 ^ 24 && fld b 0xC 4 < 2 ^ 24 && fld b 0x10 4 < 2 ^ 24 && 8 ≤ fld b 0x14 1 && fld b 0x14 1 ≤ 20 &&
  fld b 0x15 1 ≤ 7 && fld b 0x16 1 ≤ 7 && fld b 0x17 1 < 32 && zeros b 0x28 8 && zeros b 0x36 10

/-- Number of the queue pair that a descriptor names: port × 512 + QPN. -/
def qpNumber (b : List Byte) : Nat := fld b 2 1 * 512 + fld b 0 2

/-- SRC names a used entry of the function's partition (R472). -/
def qpSrcOk (dp : DataPlane) (fn : Nat) (b : List Byte) : Bool :=
  let e := dp.srcEntry (fld b 2 1) (fld b 0x17 1)
  e.family ≠ 0 && e.part = fn

/-- A new queue pair, in RESET, at line rate. -/
def qpOf (fn : Nat) (b : List Byte) : Qp :=
  { part := fn, ud := fld b 3 1 = 1, st := .reset, desc := b.take 64, src := fld b 0x17 1, prio := fld b 6 1,
    timeout := fld b 0x14 1, retry := fld b 0x15 1, retriesLeft := fld b 0x15 1, rateN := 20, rateK := 0, cnpAt := none,
    cutAt := none, rateAt := 0, rx := [], sent := 0 }

/-- Run a QP_CMD on the descriptor that its argument names: RESULT 4 unreadable, 3 a field out of range; RESULT 2 while
the partition drains. -/
def qpCommand (env : Env) (dp : DataPlane) (fn : Nat) (f : List Byte → Nat × DataPlane) : DataPlane :=
  if !fnExists dp fn || (dp.part fn).st = .disabled then dp
  else if (dp.part fn).st ≠ .ready then qpResult dp fn 2
  else
    let arg := qpArg dp fn
    match hubRead env dp fn arg.1 arg.2 64 with
    | .error e => qpResult (hubFault env dp fn (0x700 + fn) 0 0xFFFF e) fn 4
    | .ok b =>
      if !qpDescOk b then qpResult dp fn 3
      else
        let (r, dp) := f b
        qpResult dp fn r

/-- QP_CREATE (R317, R471, R472). -/
def execQpCreate (fn : Nat) (s : State) : Out :=
  s.work (fun env dp => qpCommand env dp fn (fun b =>
    if (dp.qp (qpNumber b)).isSome || qpQuota dp fn ≤ qpUsed dp fn then (2, dp)
    else if !qpSrcOk dp fn b then (3, dp)
    else (0, dp.setQp (qpNumber b) (some (qpOf fn b)))))

def qpStateOf : Nat → QpState
  | 0 => .reset | 1 => .init | 2 => .rtr | 3 => .rts | _ => .error

def qpCode : QpState → Nat
  | .reset => 0 | .init => 1 | .rtr => 2 | .rts => 3 | .error => 4

/-- QP_MODIFY (R472): one step along RESET, INIT, RTR, RTS, or to ERROR. -/
def execQpModify (fn : Nat) (s : State) : Out :=
  s.work (fun env dp => qpCommand env dp fn (fun b =>
    match dp.qp (qpNumber b) with
    | none => (1, dp)
    | some x =>
      let t := fld b 4 1
      if x.part ≠ fn then (1, dp)
      else if !qpSrcOk dp fn b then (3, dp)
      else if t = 4 then (0, failQp dp (qpNumber b))
      else if x.st ≠ .error && t = qpCode x.st + 1 then (0, dp.setQp (qpNumber b) (some { x with st := qpStateOf t }))
      else (3, dp)))

/-- QP_DESTROY (R317). -/
def execQpDestroy (fn : Nat) (s : State) : Out :=
  s.work (fun env dp => qpCommand env dp fn (fun b =>
    match dp.qp (qpNumber b) with
    | none => (1, dp)
    | some x => if x.part = fn then (0, dp.setQp (qpNumber b) none) else (1, dp)))

/-- NET_SRCTAB_REREAD (R316): PF0's write of NET_SRCTAB_HI; queue pairs whose entry changes or goes fail. -/
def execNetSrctabReread (port : Nat) (v : U32) (s : State) : Out :=
  s.work (fun env dp =>
    if 2 ≤ port then dp
    else
      let dp := dp.setRegWord 0 (0x25004 + 8 * port) (bits v.toNat 28 0)
      let base := tableBase (dp.regWord 0 (0x25000 + 8 * port)) v.toNat
      let new := fun i => if i < tableSize v.toNat 32 then
          (match hubRead env dp 0 false (base + 32 * i) 32 with
            | .ok b => srcEntryOf b
            | .error _ => SrcEntry.init)
        else SrcEntry.init
      let changed := (List.range 32).filter (fun i => dp.srcEntry port i ≠ new i)
      let dp' := dp.setNet { dp.net with
        srctab := (List.range 32).foldl (fun m i => SMap.set SrcEntry.init m (port * 32 + i) (new i)) dp.net.srctab }
      (List.range 512).foldl (fun d n => match d.qp (port * 512 + n) with
        | some x => if changed.contains x.src then failQp d (port * 512 + n) else d
        | none => d) dp')

/-! ### Inbound RDMA -/

/-- A queue pair that takes inbound messages. -/
def Qp.receives (x : Qp) : Bool := x.st = .rtr || x.st = .rts

/-- Inbound work of a failed queue pair is NAKed (R321). -/
def nakFailed (dp : DataPlane) (n : Nat) (x : Qp) : DataPlane :=
  if x.st = .error && !x.ud then netSend dp n "nak" false [] [] else dp

/-- The key check of R318: why it fails, as a reason of R240. -/
def keyCheck (env : Env) (dp : DataPlane) (p key va len : Nat) (k : AccessKind) : Option Nat :=
  let lo := dp.regWord p 0x4030
  let hi := dp.regWord p 0x4034
  let i := bits key 23 0
  if tableSize hi 4096 ≤ i then some reasonNoRegion
  else match hubRead env dp p false (tableBase lo hi + 16 * i) 16 with
    | .error _ => some reasonNoRegion
    | .ok b =>
      let fl := fld b 0xD 1
      if !bit fl 0 || fld b 0xC 1 ≠ bits key 31 24 || va < fld b 0 6 || fld b 0 6 + fld b 8 4 < va + len then some reasonNoRegion
      else if bit fl (match k with
        | .read => 1
        | _ => 2) then none
      else some reasonPermission

/-- The outstanding NVMe command whose memory key an inbound request on its association's queue pair names (R324). -/
def commandKey (dp : DataPlane) (n key : Nat) : Option NvmeCmd :=
  dp.net.nvmeCmds.find? (fun c => c.key = key && (match SMap.get none dp.net.assocs c.ctl with
    | some a => a.ioqp = n
    | none => false))

/-- A refused RDMA access: a remote access error NAK, the error state, and the fault report with the queue pair's master
ID (R318). -/
def rdmaRefuse (env : Env) (dp : DataPlane) (n : Nat) (x : Qp) (reason : Nat) (k : AccessKind) (a : Nat) : DataPlane :=
  let dp := { dp with parts := logBoth x.part (faultReport env reason k (0x800 + n) x.part a 0 0xFFFF) dp.parts }
  netSend (failQp dp n) n "nak-access" false [] []

/-- Check an inbound access on queue pair `n` (R318, R238): against an NVMe command's key, which lets the target write a
READ's data and read a WRITE's (R324), or against the partition's key table. -/
def rdmaCheck (env : Env) (dp : DataPlane) (n : Nat) (x : Qp) (key va len : Nat) (k : AccessKind) : Option (Nat × Nat) :=
  let refused := match commandKey dp n key with
    | some c =>
      if va < c.mem || c.mem + c.len < va + len then some reasonNoRegion
      else if c.write = (k = .read) then none else some reasonPermission
    | none => keyCheck env dp x.part key va len k
  match refused with
  | some r => some (r, va)
  | none => accessCheck dp x.part none k va len

/-- Perform an inbound WRITE: its bytes are written before its acknowledgement leaves (R319). -/
def rdmaPut (env : Env) (dp : DataPlane) (n key va : Nat) (data : List Byte) (next : DataPlane → DataPlane) : DataPlane :=
  let dp := rxArrive dp n
  match dp.qp n with
  | none => dp
  | some x =>
    if x.ud || !x.receives then nakFailed dp n x
    else match rdmaCheck env dp n x key va data.length .write with
      | some (r, a) => rdmaRefuse env dp n x r .write a
      | none =>
        let dp := { dp with mem := dp.mem.write va data }
        let dp := dp.addUsage x.part (fun u => { u with netRx := u.netRx + data.length, hbmWr := u.hbmWr + hbmBytes va data.length })
        netSend (next dp) n "ack" false [] []

/-- RDMA_WRITE. -/
def execRdmaWrite (qp key va : Nat) (data : List Byte) (s : State) : Out :=
  s.work (fun env dp => rdmaPut env dp qp key va data id)

/-- RDMA_READ (R318): bytes of a poisoned granule are not stated and are free values. -/
def execRdmaRead (qp key va len : Nat) (s : State) : Out :=
  s.work (fun env dp =>
    let dp := rxArrive dp qp
    match dp.qp qp with
    | none => dp
    | some x =>
      if x.ud || !x.receives then nakFailed dp qp x
      else match rdmaCheck env dp qp x key va len .read with
        | some (r, a) => rdmaRefuse env dp qp x r .read a
        | none =>
          let bad := (poisonedAt dp.mem va len).isSome
          let bs := if bad then freshBytes dp.free len else readBytes dp.mem.dev va len
          let dp := { dp with free := dp.free + b2n bad * len }
          netSend (dp.addUsage x.part (fun u => { u with hbmRd := u.hbmRd + hbmBytes va len })) qp "read-response" false [] bs)

/-- Receive a SEND: RC acknowledges it (R317). -/
def receive (dp : DataPlane) (n : Nat) (bytes : List Byte) : DataPlane :=
  let dp := rxArrive dp n
  match dp.qp n with
  | none => dp
  | some x =>
    if !x.receives then nakFailed dp n x
    else
      let dp := (dp.setQp n (some { x with rx := x.rx ++ [bytes] })).addUsage x.part
        (fun u => { u with netRx := u.netRx + bytes.length })
      if x.ud then dp else netSend dp n "ack" false [] []

/-- SEND. -/
def execSend (qp : Nat) (data : List Byte) (s : State) : Out := s.work (fun _ dp => receive dp qp data)

/-- SEND_WITH_IMMEDIATE. -/
def execSendWithImmediate (qp : Nat) (data : List Byte) (imm : U32) (s : State) : Out :=
  s.work (fun _ dp => receive dp qp (data ++ leBytes 4 imm.toNat))

/-! ### Rings -/

def DataPlane.service (dp : DataPlane) (p : Nat) : Option Service := SMap.get none dp.services p
def DataPlane.setService (dp : DataPlane) (p : Nat) (x : Option Service) : DataPlane :=
  { dp with services := SMap.set none dp.services p x }

/-- Change ring `i` of a service. -/
def Service.modRing (v : Service) (i : Nat) (f : Ring → Ring) : Service :=
  { v with rings := (v.rings.zipIdx).map (fun r => if r.2 = i then f r.1 else r.1) }

/-- An egress entry (R334); the tokens beyond NTOK are free values. -/
def egressBytes (free plumb id index end_ status : Nat) (toks : List Nat) : List Byte :=
  leBytes 8 id ++ leBytes 4 index ++ leBytes 1 toks.length ++ leBytes 1 end_ ++ leBytes 2 status ++ leBytes 8 plumb ++
  leBytes 8 0 ++ toks.flatMap (leBytes 4) ++ freshBytes free (96 - 4 * toks.length)

/-- An egress entry of ring `i` waits to be written: no token is dropped (R335). -/
def egressAdd (env : Env) (dp : DataPlane) (p i id index end_ status : Nat) (toks : List Nat) : DataPlane :=
  match dp.service p with
  | none => dp
  | some v =>
    let dp := dp.setService p (some { v with out := v.out ++ [(i, egressBytes dp.free env.plumb id index end_ status toks)] })
    { dp with free := dp.free + (96 - 4 * toks.length) }

/-- Slots of a client's egress ring that hold entries it has not read. -/
def Ring.unread (r : Ring) (dp : DataPlane) : Nat := span32 r.egCount (readNat dp.mem.dev r.egHeadAt 4)

/-- Write one entry to the client's ring, then its count (R334). -/
def egressPut (dp : DataPlane) (p i : Nat) (r : Ring) (b : List Byte) : DataPlane :=
  let n := (r.egCount + 1) % 2 ^ 32
  let dp := netSend dp r.qp "write" true [r.egKey, r.egBase + 128 * (r.egCount % 2 ^ r.egSize)] b
  let dp := netSend dp r.qp "write-imm" true [n] []
  match dp.service p with
  | some v => dp.setService p (some (v.modRing i (fun r => { r with egCount := n })))
  | none => dp

/-- Write the waiting entries whose ring has a free slot, in order; the others keep waiting (R335). -/
def egressFlush (p : Nat) : List (Nat × List Byte) → DataPlane → DataPlane
  | [], dp => dp
  | x :: xs, dp =>
    match dp.service p with
    | none => dp
    | some v =>
      match v.rings[x.1]? with
      | none => egressFlush p xs dp
      | some r =>
        if r.unread dp < 2 ^ r.egSize then egressFlush p xs (egressPut dp p x.1 r x.2)
        else egressFlush p xs (dp.setService p (some { v with out := v.out ++ [x] }))

/-- Write what can be written of a service's waiting entries. -/
def flushEgress (dp : DataPlane) (p : Nat) : DataPlane :=
  match dp.service p with
  | some v => egressFlush p v.out (dp.setService p (some { v with out := [] }))
  | none => dp

/-- An ingress immediate on the queue pair of a service's ring (R333): the new slot count, or an overrun, which stops the
ring and sends one entry. -/
def ingressCount (env : Env) (n imm : Nat) (dp : DataPlane) : DataPlane :=
  match dp.qp n with
  | none => dp
  | some x =>
    match dp.service x.part with
    | none => dp
    | some v =>
      match (v.rings.zipIdx).find? (fun r => r.1.qp = n) with
      | none => dp
      | some (r, i) =>
        if r.stopped then dp
        else if 2 ^ r.inSize < span32 imm r.consumed then
          flushEgress (egressAdd env (dp.setService x.part (some (v.modRing i (fun r => { r with stopped := true })))) x.part i 0 0 5
            stRequestInvalid []) x.part
        else dp.setService x.part (some (v.modRing i (fun r => { r with count := imm, marks := r.marks ++ [(imm, env.plumb)] })))

/-- The immediate of a queue pair that serves no ring is delivered to it. -/
def immediateTo (env : Env) (n imm : Nat) (dp : DataPlane) : DataPlane :=
  match dp.qp n with
  | none => dp
  | some x =>
    let ringed := match dp.service x.part with
      | some v => v.rings.any (fun r => r.qp = n)
      | none => false
    if ringed then ingressCount env n imm dp else dp.setQp n (some { x with rx := x.rx ++ [leBytes 4 imm] })

/-- RDMA_WRITE_WITH_IMMEDIATE (R319, R333): the immediate is acted on after the payload is performed. -/
def execRdmaWriteWithImmediate (qp key va : Nat) (data : List Byte) (imm : U32) (s : State) : Out :=
  s.work (fun env dp => rdmaPut env dp qp key va data (immediateTo env qp imm.toNat))

/-! ### Acknowledgement and congestion -/

/-- RDMA_ACKNOWLEDGEMENT (R319): the oldest outbound message completes. -/
def execRdmaAcknowledgement (qp : Nat) (s : State) : Out :=
  s.work (fun _ dp =>
    match dp.qp qp with
    | some x => if x.st = .rts && 0 < x.sent then dp.setQp qp (some { x with sent := x.sent - 1, retriesLeft := x.retry }) else dp
    | none => dp)

/-- QP_ACK_TIME_OUT (R472): retransmit, or move to the error state when RETRY is exhausted. -/
def execQpAckTimeOut (qp : Nat) (s : State) : Out :=
  s.work (fun _ dp =>
    match dp.qp qp with
    | some x =>
      if x.ud || x.st ≠ .rts || x.sent = 0 then dp
      else if 0 < x.retriesLeft then
        netSend (dp.setQp qp (some { x with retriesLeft := x.retriesLeft - 1 })) qp "retransmit" false [x.sent] []
      else failQp dp qp
    | none => dp)

/-- At least `ns` after an event, when there has been one. -/
def since (plumb ns : Nat) : Option Nat → Bool
  | some t => t + ns ≤ plumb
  | none => true

/-- ECN_MARKED_PACKET (R320): a congestion notification goes to the sender, at most one in 50 µs. -/
def execEcnMarkedPacket (qp : Nat) (s : State) : Out :=
  s.work (fun env dp =>
    match dp.qp qp with
    | some x =>
      if since env.plumb 50000 x.cnpAt then netSend (dp.setQp qp (some { x with cnpAt := some env.plumb })) qp "cnp" false [] [] else dp
    | none => dp)

/-- CONGESTION_NOTIFICATION (R320): the rate halves, at most once in 50 µs, and the time to its next raise starts again. -/
def execCongestionNotification (qp : Nat) (s : State) : Out :=
  s.work (fun env dp =>
    match dp.qp qp with
    | some x =>
      if since env.plumb 50000 x.cutAt then
        dp.setQp qp (some { x with rateK := x.rateK + 1, cutAt := some env.plumb, rateAt := env.plumb })
      else dp.setQp qp (some { x with rateAt := env.plumb })
    | none => dp)

/-- RATE_RECOVERY (R320): 55 µs have passed without a notification; the rate rises by 5 % of line rate, up to it. -/
def execRateRecovery (qp : Nat) (s : State) : Out :=
  s.work (fun env dp =>
    match dp.qp qp with
    | some x =>
      if x.rateAt + 55000 ≤ env.plumb && x.rateN < 20 * 2 ^ x.rateK then
        dp.setQp qp (some { x with rateN := min (x.rateN + 2 ^ x.rateK) (20 * 2 ^ x.rateK), rateAt := env.plumb })
      else dp
    | none => dp)

end Sys2Proof.Machine
end

