-- ==== Sys2Proof/Machine/Nvme.lean ====
section
/-! DEFINITION. NVMe over Fabrics (R322 to R326, R473): associations, striped READ and WRITE, completions, time-outs,
Keep Alive, and what an abort does to the engines. -/

namespace Sys2Proof.Machine

def DataPlane.assoc (dp : DataPlane) (c : Nat) : Option Assoc := SMap.get none dp.net.assocs c
def DataPlane.setAssoc (dp : DataPlane) (c : Nat) (x : Option Assoc) : DataPlane :=
  dp.setNet { dp.net with assocs := SMap.set none dp.net.assocs c x }

/-- Master of a port's NVMe-oF engine (R235). -/
def nvmeMaster (port : Nat) : Nat := 0x608 + port

/-- Run a command of an NVMe-oF engine on the HUB record that it holds, with the engine's port. An OP that R323 does not
list ends the record with RECORD_INVALID. -/
def withNvme (dp : DataPlane) (q seq op : Nat) (f : Launch → Nat → DataPlane) : DataPlane :=
  match hubHeld dp q seq [4, 5] with
  | none => dp
  | some l =>
    if dp.net.nvmeOps.any (fun o => o.q = q && o.seq = seq) then dp
    else if fld l.const 0 1 = op then f l (l.group - 4)
    else if 1 ≤ fld l.const 0 1 && fld l.const 0 1 ≤ 4 then dp
    else hubEnd dp q seq (some stRecordInvalid)

/-- The error-log entry of a failed command (R325): controller, NVMe status and failing offset. -/
def nvmeLog (env : Env) (dp : DataPlane) (p port ctl code status off seq q : Nat) : DataPlane :=
  { dp with parts := logBoth p (LogFields.bytes ⟨code, 1, ctl, nvmeMaster port, p, off, env.plumb, seq, q, status⟩) dp.parts }

/-- The fields of R323 that CONNECT and DISCONNECT leave 0. -/
def assocCmdOk (c : List Byte) : Bool := zeros c 1 23 && zeros c 0x19 135 && fld c 0x18 1 < 64

/-- A queue pair that an association may use (R473): RC, connected, of the partition, on the engine's port. -/
def nvmeQpOk (dp : DataPlane) (p port n : Nat) : Bool :=
  n / 512 = port && (match dp.qp n with
    | some x => x.part = p && !x.ud && x.st = .rts
    | none => false)

/-- Depth of an association's I/O queue (R322). -/
def ioDepth : Nat := 128

/-- NVMEOF_CONNECT (R322, R323, R473): whether the controller accepts, with its block size and MDTS in bytes (0: no
limit). -/
def execNvmeofConnect (q seq : Nat) (accepted : Bool) (blockLog mdts : Nat) (s : State) : Out :=
  s.work (fun env dp => withNvme dp q seq 1 (fun l port =>
    let ctl := fld l.const 0x18 1
    let a := l.addrs.headD 0
    if !assocCmdOk l.const || a % 16 ≠ 0 then hubEnd dp q seq (some stRecordInvalid)
    else match fabRead env dp l.part a 544 with
      | .error f => hubEnd (hubFault env dp l.part (nvmeMaster port) seq q f) q seq (some f.status)
      | .ok b =>
        if !zeros b 0x18 8 || fld b 4 4 < 1000 || 120000 < fld b 4 4 || (dp.assoc ctl).isSome then
          hubEnd dp q seq (some stRecordInvalid)
        else if !accepted || !(nvmeQpOk dp l.part port (fld b 0 2)) || !(nvmeQpOk dp l.part port (fld b 2 2)) ||
            !(blockLog = 9 || blockLog = 12) then
          hubEnd (nvmeLog env dp l.part port ctl stNvmeError 0 0 seq q) q seq (some stNvmeError)
        else
          let dp := netSend dp (fld b 0 2) "nvme-connect" true [ctl, fld b 2 2, fld b 4 4, ioDepth] (b.drop 8)
          hubEnd (dp.setAssoc ctl (some ⟨l.part, fld b 0 2, fld b 2 2, fld b 4 4, blockLog, mdts⟩)) q seq none))

/-! ### Striped commands -/

/-- The command at byte `o` of an operation: controller, offset past LBA, and length (R324). -/
def NvmeOp.piece (x : NvmeOp) (mdts : Nat → Nat) (o : Nat) : Nat × Nat × Nat :=
  let j := o / x.unit
  let ctl := x.ctls.getD (j % x.ctls.length) 0
  let room := min (x.unit - o % x.unit) (x.bytes - o)
  (ctl, j / x.ctls.length * x.unit + o % x.unit, if mdts ctl = 0 then room else min room (mdts ctl))

/-- Commands outstanding on a controller. -/
def outstanding (dp : DataPlane) (ctl : Nat) : Nat := (dp.net.nvmeCmds.filter (fun c => c.ctl = ctl)).length

/-- The data that a WRITE command carries, read in the partition's class. -/
def nvmeData (env : Env) (dp : DataPlane) (x : NvmeOp) (o n : Nat) : Except EFault (List Byte) :=
  if x.write then fabRead env dp x.part (x.base + o) n else .ok []

/-- The memory key of a command (R324), named after its identifier: the spec gives it no value but that it is made for
that command alone. Its index lies beyond every key table (R318; log entry 73). -/
def nvmeKey (cid : Nat) : Nat := cid / 2 ^ 20 % 256 * 2 ^ 24 + 4096 + cid % 2 ^ 20

/-- The largest data that a WRITE command carries in its capsule (R322); the target reads more under the command's key. -/
def inCapsule : Nat := 8192

/-- Issue one command. -/
def issueCmd (dp : DataPlane) (x : NvmeOp) (ctl off len : Nat) (a : Assoc) (data : List Byte) : DataPlane :=
  let cid := dp.net.nextCid
  let net := dp.net
  let dp := if x.write && len ≤ inCapsule then dp.addUsage x.part (fun u => { u with hbmRd := u.hbmRd + hbmBytes (x.base + x.issued) len }) else dp
  let dp := dp.setNet { net with
    nvmeCmds := net.nvmeCmds ++ [⟨x.q, x.seq, ctl, cid, nvmeKey cid, x.write, x.issued, len, x.base + x.issued⟩]
    nvmeOps := net.nvmeOps.map (fun y => if y.q = x.q && y.seq = x.seq then { y with issued := x.issued + len } else y)
    nextCid := cid + 1 }
  netSend dp a.ioqp (if x.write then "nvme-write" else "nvme-read") true
    [ctl, cid, x.nsid, x.lba + off / 2 ^ a.blockLog, len / 2 ^ a.blockLog, x.base + x.issued, nvmeKey cid]
    (if len ≤ inCapsule then data else [])

/-- Why an operation stops. -/
inductive NvmeStop where
  | fine (dp : DataPlane)
  | failed (f : EFault)
  | gone (ctl : Nat)

/-- Issue commands while the next one's controller has fewer than 32 outstanding (R324); `fuel` bounds the count. -/
def issueMore (env : Env) (q seq : Nat) : Nat → DataPlane → NvmeStop
  | 0, dp => .fine dp
  | k + 1, dp =>
    match dp.net.nvmeOps.find? (fun o => o.q = q && o.seq = seq) with
    | none => .fine dp
    | some x =>
      if x.bytes ≤ x.issued then .fine dp
      else
        let (ctl, off, len) := x.piece (fun c => match dp.assoc c with
          | some a => a.mdts
          | none => 0) x.issued
        match dp.assoc ctl with
        | none => .gone ctl
        | some a =>
          if 32 ≤ outstanding dp ctl then .fine dp
          else match nvmeData env dp x x.issued len with
            | .error f => .failed f
            | .ok data => issueMore env q seq k (issueCmd dp x ctl off len a data)

/-- Drop an operation and its commands, whose keys are invalid from then on (R324 to R326). -/
def dropOp (dp : DataPlane) (q seq : Nat) : DataPlane :=
  dp.setNet { dp.net with
    nvmeOps := dp.net.nvmeOps.filter (fun o => !(o.q = q && o.seq = seq))
    nvmeCmds := dp.net.nvmeCmds.filter (fun c => !(c.q = q && c.seq = seq)) }

/-- The destination of a READ that fails or is aborted is undefined, as far as its class may write it (R325, R326). -/
def undefineDest (dp : DataPlane) (x : NvmeOp) : DataPlane :=
  if x.write || (accessCheck dp x.part none .write x.base x.bytes).isSome then dp
  else { dp with mem := dp.mem.write x.base (freshBytes dp.free x.bytes), free := dp.free + x.bytes }

/-- End an operation in failure. -/
def nvmeFail (dp : DataPlane) (x : NvmeOp) (status : Nat) : DataPlane :=
  hubEnd (undefineDest (dropOp dp x.q x.seq) x) x.q x.seq (some status)

/-- A refused access of an operation. -/
def nvmeRefused (env : Env) (dp : DataPlane) (x : NvmeOp) (port : Nat) (f : EFault) : DataPlane :=
  nvmeFail (hubFault env dp x.part (nvmeMaster port) x.seq x.q f) x f.status

/-- The operation has no command left: the digest is written, and it completes (R325). -/
def nvmeFinish (env : Env) (dp : DataPlane) (x : NvmeOp) (port : Nat) : DataPlane :=
  match x.digest with
  | none => hubEnd (dropOp dp x.q x.seq) x.q x.seq none
  | some a =>
    match fabRead env dp x.part x.base x.bytes with
    | .error f => nvmeRefused env dp x port f
    | .ok b =>
      match fabWrite env (hubUsed env dp x.part false x.base x.bytes) x.part a (shake32 b) with
      | .error f => nvmeRefused env dp x port f
      | .ok dp => hubEnd (dropOp dp x.q x.seq) x.q x.seq none

/-- An operation whose association is gone fails (R325). -/
def nvmeLost (env : Env) (dp : DataPlane) (x : NvmeOp) (port ctl : Nat) : DataPlane :=
  nvmeFail (nvmeLog env dp x.part port ctl stNvmeError 0 x.issued x.seq x.q) x stNvmeError

/-- Go on with an operation: issue, and finish when everything has been issued and completed. -/
def nvmeGo (env : Env) (dp : DataPlane) (q seq port : Nat) : DataPlane :=
  match issueMore env q seq 513 dp with
  | .failed f =>
    (match dp.net.nvmeOps.find? (fun o => o.q = q && o.seq = seq) with
      | some x => nvmeRefused env dp x port f
      | none => dp)
  | .gone ctl =>
    (match dp.net.nvmeOps.find? (fun o => o.q = q && o.seq = seq) with
      | some x => nvmeLost env dp x port ctl
      | none => dp)
  | .fine dp =>
    match dp.net.nvmeOps.find? (fun o => o.q = q && o.seq = seq) with
    | none => dp
    | some x =>
      if x.bytes ≤ x.issued && !dp.net.nvmeCmds.any (fun c => c.q = q && c.seq = seq) then nvmeFinish env dp x port else dp

/-- Field ranges of a READ or WRITE (R323), given each controller's association. -/
def rwCmdOk (c : List Byte) : Bool :=
  1 ≤ fld c 1 1 && fld c 1 1 ≤ 16 && fld c 2 1 ≤ 4 && fld c 3 1 ≤ 1 && fld c 0x10 8 ≤ 2 ^ 40 && zeros c 0x28 120 &&
  zeros c (0x18 + fld c 1 1) (16 - fld c 1 1) && ((List.range 16).all (fun i => fld c (0x18 + i) 1 < 64))

/-- The controllers of a stripe. -/
def stripeOf (c : List Byte) : List Nat := (List.range (fld c 1 1)).map (fun i => fld c (0x18 + i) 1)

/-- Start a READ or WRITE. -/
def nvmeStart (env : Env) (dp : DataPlane) (l : Launch) (port : Nat) (write : Bool) : DataPlane :=
  let c := l.const
  let ctls := stripeOf c
  let bad := fun n => match dp.assoc n with
    | some a => a.part ≠ l.part || a.ioqp / 512 ≠ port
    | none => true
  let blocks := ctls.all (fun n => match dp.assoc n with
    | some a => fld c 0x10 8 % 2 ^ a.blockLog = 0
    | none => true)
  if !rwCmdOk c || !blocks then hubEnd dp l.q l.seq (some stRecordInvalid)
  else match ctls.find? bad with
    | some n => hubEnd (nvmeLog env dp l.part port n stNvmeError 0 0 l.seq l.q) l.q l.seq (some stNvmeError)
    | none =>
      let x : NvmeOp := {
        q := l.q, seq := l.seq, part := l.part, write := write, ctls := ctls, unit := 65536 * 2 ^ fld c 2 1,
        nsid := fld c 4 4, lba := fld c 8 8, bytes := fld c 0x10 8, base := l.addrs.headD 0,
        digest := if bit (fld c 3 1) 0 then some (l.addrs.getD 1 0) else none, issued := 0 }
      nvmeGo env (dp.setNet { dp.net with nvmeOps := dp.net.nvmeOps ++ [x] }) l.q l.seq port

/-- NVMEOF_READ (R323, R324). -/
def execNvmeofRead (q seq : Nat) (s : State) : Out :=
  s.work (fun env dp => withNvme dp q seq 2 (fun l port => nvmeStart env dp l port false))

/-- NVMEOF_WRITE (R323, R324). -/
def execNvmeofWrite (q seq : Nat) (s : State) : Out :=
  s.work (fun env dp => withNvme dp q seq 3 (fun l port => nvmeStart env dp l port true))

/-! ### Completions -/

/-- The outstanding command of a controller with its operation. -/
def findCmd (dp : DataPlane) (ctl cid : Nat) : Option (NvmeCmd × NvmeOp) :=
  match dp.net.nvmeCmds.find? (fun c => c.ctl = ctl && c.cid = cid) with
  | none => none
  | some c => (dp.net.nvmeOps.find? (fun o => o.q = c.q && o.seq = c.seq)).map (fun o => (c, o))

/-- Port of an operation: that of the engine which holds its record. -/
def opPort (dp : DataPlane) (x : NvmeOp) : Nat :=
  match dp.launch x.q x.seq with
  | some l => l.group - 4
  | none => 0

/-- Every operation goes on as far as it can: commands of one may have waited for those of another (R324). -/
def nvmeGoAll (env : Env) (dp : DataPlane) : DataPlane :=
  dp.net.nvmeOps.foldl (fun dp x => nvmeGo env dp x.q x.seq (opPort dp x)) dp

/-- The association is closed or reset: operations that use it fail (R325), and the others go on. -/
def dropAssoc (env : Env) (dp : DataPlane) (ctl : Nat) : DataPlane :=
  let dp := dp.setAssoc ctl none
  nvmeGoAll env ((dp.net.nvmeOps.filter (fun x => x.ctls.contains ctl)).foldl (fun dp x => nvmeLost env dp x (opPort dp x) ctl) dp)

/-- NVMEOF_DISCONNECT (R323). -/
def execNvmeofDisconnect (q seq : Nat) (s : State) : Out :=
  s.work (fun env dp => withNvme dp q seq 4 (fun l port =>
    let ctl := fld l.const 0x18 1
    if !assocCmdOk l.const then hubEnd dp q seq (some stRecordInvalid)
    else match dp.assoc ctl with
      | some a =>
        if a.part = l.part && a.aqp / 512 = port then
          hubEnd (dropAssoc env (netSend dp a.aqp "nvme-disconnect" true [ctl] []) ctl) q seq none
        else hubEnd (nvmeLog env dp l.part port ctl stNvmeError 0 0 seq q) q seq (some stNvmeError)
      | none => hubEnd (nvmeLog env dp l.part port ctl stNvmeError 0 0 seq q) q seq (some stNvmeError)))

/-- The command is outstanding no longer. -/
def dropCmd (dp : DataPlane) (c : NvmeCmd) : DataPlane :=
  dp.setNet { dp.net with nvmeCmds := dp.net.nvmeCmds.filter (fun d => !(d.ctl = c.ctl && d.cid = c.cid)) }

/-- NVME_COMMAND_COMPLETION (R324, R325): `data` is what the target wrote under the command's key, unless it came as RDMA
writes of its own. -/
def execNvmeCommandCompletion (ctl cid : Nat) (status : U16) (data : List Byte) (s : State) : Out :=
  s.work (fun env dp =>
    match findCmd dp ctl cid with
    | none => dp
    | some (c, x) =>
      let port := opPort dp x
      let dp := dropCmd dp c
      if status ≠ 0 then
        nvmeGoAll env (nvmeFail (nvmeLog env dp x.part port ctl stNvmeError status.toNat c.off x.seq x.q) x stNvmeError)
      else if c.write then nvmeGoAll env dp
      else match fabWrite env dp x.part c.mem (data.take c.len) with
        | .error f => nvmeGoAll env (nvmeRefused env dp x port f)
        | .ok dp =>
          nvmeGoAll env (dp.addUsage x.part (fun u => { u with netRx := u.netRx + min data.length c.len })))

/-- NVME_TIMEOUT (R325): the record fails and the association is reset. -/
def execNvmeTimeout (ctl cid : Nat) (s : State) : Out :=
  s.work (fun env dp =>
    match findCmd dp ctl cid with
    | none => dp
    | some (c, x) =>
      let dp := nvmeFail (nvmeLog env dp x.part (opPort dp x) ctl stNvmeTimeout 0 c.off x.seq x.q) x stNvmeTimeout
      match dp.assoc ctl with
      | some a => dropAssoc env (netSend dp a.aqp "nvme-reset" true [ctl] []) ctl
      | none => dp)

/-- KEEP_ALIVE (R322): a third of the negotiated time-out has passed. -/
def execKeepAlive (ctl : Nat) (s : State) : Out :=
  s.work (fun _ dp =>
    match dp.assoc ctl with
    | some a => netSend dp a.aqp "nvme-keep-alive" true [ctl, a.kato / 3] []
    | none => dp)

/-- An abort reaches an NVMe-oF engine's operation (R326): its keys are invalidated, NVMe Abort goes out for its
commands, and its destination is undefined. -/
def nvmeAbort (dp : DataPlane) (q seq : Nat) : DataPlane :=
  match dp.net.nvmeOps.find? (fun o => o.q = q && o.seq = seq) with
  | none => dp
  | some x =>
    let cs := dp.net.nvmeCmds.filter (fun c => c.q = q && c.seq = seq)
    let dp := dropOp dp q seq
    undefineDest (cs.foldl (fun dp c => match dp.assoc c.ctl with
      | some a => netSend dp a.aqp "nvme-abort" true [c.ctl, c.cid] []
      | none => dp) dp) x

end Sys2Proof.Machine
end

