-- ==== Sys2Proof/Machine/Collectives.lean ====
section
/-! DEFINITION. Collective operations (R383 to R395): reductions in the fixed ring order, data moves, chunks with their
acknowledgements and resends, and how an operation fails. -/

namespace Sys2Proof.Machine

/-! ### The order of a reduction (R385, R386) -/

/-- Segment bounds of a range in a ring of `p`. -/
def segBounds (lo hi p : Nat) : List Nat :=
  (List.range (p + 1)).map (fun s => min hi (lo + 64 * (s * ceilDiv (hi - lo) 64 / p)))

/-- A segment of a range. -/
def segment (lo hi p s : Nat) : Nat × Nat := ((segBounds lo hi p).getD s 0, (segBounds lo hi p).getD (s + 1) 0)

/-- The part of a segment that travels the + way, or the − way. -/
def segPart (seg : Nat × Nat) (plus : Bool) : Nat × Nat :=
  let mid := min seg.2 (seg.1 + 64 * ceilDiv (seg.2 - seg.1) 128)
  if plus then (seg.1, mid) else (mid, seg.2)

def Group.dim (g : Group) (lv : Nat) : Nat := g.dims.getD lv 1

/-- Ranks between neighbours of a ring of a level. -/
def Group.stride (g : Group) (lv : Nat) : Nat := (g.dims.take lv).foldl (· * ·) 1

/-- Coordinate of this member at a level (R386). -/
def Group.coord (g : Group) (lv : Nat) : Nat := g.rank / g.stride lv % g.dim lv

/-- The rank at a position of this member's ring of a level. -/
def Group.ringRank (g : Group) (lv pos : Nat) : Nat := g.rank - g.coord lv * g.stride lv + pos * g.stride lv

/-- The range of a level on this member; one level past the last, the segment that it finally owns (R386). -/
def Group.range (g : Group) (count : Nat) : Nat → Nat × Nat
  | 0 => (0, count)
  | lv + 1 => segment (g.range count lv).1 (g.range count lv).2 (g.dim lv) (g.coord lv)

/-- The elements of a segment and direction of a level. -/
def Group.part' (g : Group) (count lv s : Nat) (plus : Bool) : Nat × Nat :=
  segPart (segment (g.range count lv).1 (g.range count lv).2 (g.dim lv) s) plus

/-- Who receives step `h` round the ring of a segment: the owner is reached at step p − 2 of the reduction, and the
gather goes on in the same direction. -/
def ringTo (p s h : Nat) (plus : Bool) : Nat := if plus then (s + 2 + h) % p else (s + 2 * p - 2 - h % p) % p

/-- The segment of which a position receives step `h`. -/
def ringSeg (p pos h : Nat) (plus : Bool) : Nat := if plus then (pos + 2 * p - (2 + h) % p) % p else (pos + 2 + h) % p

/-! ### Values -/

/-- Bytes of a value in a wire or output format. -/
def fmtSize (fmt : Nat) : Nat := if fmt = 1 then 2 else 4

/-- Combinations of R384. -/
def formatsOk (i w o : Nat) : Bool :=
  if i = 10 then w = 10 && o = 10 else i ≤ 4 && w ≤ 1 && o ≤ 1

/-- Round FP32 bits to a format (R48); INT32 is taken as it is. -/
def toFmt (fmt v : Nat) : Nat := if fmt = 1 then encodeF layBF16 (f32 v) else v

/-- Widen a value of a format to FP32 bits (R47). -/
def fromFmt (fmt v : Nat) : Nat := if fmt = 1 then toF32 (decodeF layBF16 v) else v

/-- One combination (R79, R122, R384). -/
def combineVal (ifmt redop a b : Nat) : Nat :=
  if ifmt = 10 then
    (match redop with
      | 0 => (a + b) % 2 ^ 32
      | 1 => if signedOf 32 a < signedOf 32 b then b else a
      | _ => if signedOf 32 a < signedOf 32 b then a else b)
  else match redop with
    | 0 => fadd a b
    | 1 => fmax a b
    | _ => fmin a b

/-- An input element widened (R47, R384): FP8 takes its block's scale, which makes it NaN when the scale is. -/
def inputVal (ifmt : Nat) (data scales : List Byte) (i : Nat) : Nat :=
  let c := elemCode (fun a => data.getD a 0) ifmt 0 i
  if ifmt = 10 || ifmt = 0 then c
  else if ifmt = 3 || ifmt = 4 then toF32 ((codeVal ifmt c).mul (scaleVal 1 (scales.getD (i / 32) 0).toNat))
  else toF32 (codeVal ifmt c)

def accKey (lv i : Nat) : Nat := lv * 2 ^ 50 + i
def finalLevel : Nat := 9

def CollOp.val (o : CollOp) (lv i : Nat) : Option Nat := SMap.get none o.acc (accKey lv i)
def CollOp.put (o : CollOp) (lv i v : Nat) : CollOp := { o with acc := SMap.set none o.acc (accKey lv i) (some v) }
def CollOp.known (o : CollOp) (lv : Nat) (r : Nat × Nat) : Bool :=
  (List.range (r.2 - r.1)).all (fun i => (o.val lv (r.1 + i)).isSome)

/-- The value that leaves a level: a partial of the next level, or the final value in OFMT (R386). -/
def CollOp.own (o : CollOp) (g : Group) (lv i v : Nat) : CollOp :=
  if lv + 1 = g.ndim then o.put finalLevel i (toFmt o.ofmt v) else o.put (lv + 1) i v

/-! ### Chunks (R390) -/

def Group.chunkBytes (g : Group) : Nat := 4096 * 2 ^ g.chunk

/-- Number of a chunk's stream: level, segment, direction and step; a data move's source is its segment. -/
def streamKey (lv s h : Nat) (plus : Bool) : Nat := ((lv * 2 ^ 16 + s) * 2 ^ 17 + h) * 2 + b2n plus

def CollOp.streamOf (o : CollOp) (c : Chunk) : Nat :=
  if o.coll ≤ 2 then streamKey c.level c.segment c.hop c.plus else streamKey 0 c.segment 0 true

/-- Queue a chunk to a rank. -/
def CollOp.queueChunk (o : CollOp) (g : Group) (rank lv s : Nat) (plus : Bool) (h index : Nat) (data : List Byte) : CollOp :=
  { o with toSend := o.toSend ++ [(rank, ⟨o.gnum, g.rank, o.opseq, g.gdig, o.opdig, lv, s, plus, h, index, data⟩)] }

/-- Element size on the wire of a step: the reduction in WFMT, the gather in OFMT. -/
def CollOp.stepSize (o : CollOp) (p h : Nat) : Nat := if h + 1 < p then fmtSize o.wfmt else fmtSize o.ofmt

/-- Queue a part in chunks: `bits` gives each element's wire bits. -/
def CollOp.sendPart (o : CollOp) (g : Group) (lv s h : Nat) (plus : Bool) (wire : Nat → Nat) : CollOp :=
  let p := g.dim lv
  let r := g.part' o.count lv s plus
  let size := o.stepSize p h
  let per := g.chunkBytes / size
  (List.range (ceilDiv (r.2 - r.1) per)).foldl (fun o k =>
    let lo := r.1 + k * per
    let data := (List.range (min per (r.2 - lo))).flatMap (fun i => leBytes size (wire (lo + i)))
    o.queueChunk g (g.ringRank lv (ringTo p s h plus)) lv s plus h k data) o

/-- The whole reduction includes the gather (ALL_REDUCE). -/
def CollOp.gathers (o : CollOp) : Bool := o.coll = 1

/-- Begin what can begin: the reduction of a level once its values are known, and its gather, from the last level back,
once the values of the member's segment are final. -/
def CollOp.begin_ (o : CollOp) (g : Group) (lv : Nat) : CollOp :=
  let p := g.dim lv
  let c := g.coord lv
  let r := g.range o.count lv
  let o :=
    if o.starts.contains (2 * lv) || !o.known lv r then o
    else
      let o := { o with starts := o.starts ++ [2 * lv] }
      if p = 1 then (List.range (r.2 - r.1)).foldl (fun o i => o.own g lv (r.1 + i) ((o.val lv (r.1 + i)).getD 0)) o
      else
        let wire := fun i => toFmt o.wfmt ((o.val lv i).getD 0)
        (o.sendPart g lv ((c + p - 1) % p) 0 true wire).sendPart g lv ((c + 1) % p) 0 false wire
  if !o.gathers || p = 1 || o.starts.contains (2 * lv + 1) || !o.known finalLevel (g.range o.count (lv + 1)) then o
  else
    let o := { o with starts := o.starts ++ [2 * lv + 1] }
    let wire := fun i => (o.val finalLevel i).getD 0
    (o.sendPart g lv c (p - 1) true wire).sendPart g lv c (p - 1) false wire

/-- Fold a reduction chunk in, or store a gather chunk, and pass it on (R385). -/
def CollOp.takeRing (o : CollOp) (g : Group) (ifmt : Nat) (c : Chunk) : CollOp :=
  let p := g.dim c.level
  let size := o.stepSize p c.hop
  let lo := (g.part' o.count c.level c.segment c.plus).1 + c.index * (g.chunkBytes / size)
  let n := c.data.length / size
  let next := g.ringRank c.level (ringTo p c.segment (c.hop + 1) c.plus)
  if c.hop + 1 < p then
    let acc := fun i => combineVal ifmt o.redop (fromFmt o.wfmt (leNat ((c.data.drop (i * size)).take size)))
      ((o.val c.level (lo + i)).getD 0)
    if c.hop + 2 = p then (List.range n).foldl (fun o i => o.own g c.level (lo + i) (acc i)) o
    else o.queueChunk g next c.level c.segment c.plus (c.hop + 1) c.index
      ((List.range n).flatMap (fun i => leBytes size (toFmt o.wfmt (acc i))))
  else
    let o' := (List.range n).foldl (fun o i => o.put finalLevel (lo + i) (leNat ((c.data.drop (i * size)).take size))) o
    if c.hop + 3 < 2 * p then o'.queueChunk g next c.level c.segment c.plus (c.hop + 1) c.index c.data else o'

/-- A ring chunk can be taken: it belongs to a step that this member receives, and its level's values are known. -/
def CollOp.ringReady (o : CollOp) (g : Group) (c : Chunk) : Bool :=
  let p := g.dim c.level
  c.hop + 1 ≥ p || o.known c.level (g.part' o.count c.level c.segment c.plus)

/-! ### The operation on this module -/

/-- Whether the operation takes floating-point values: INT32 has one format for all three. -/
def CollOp.ifmt (o : CollOp) : Nat := if o.wfmt = 10 then 10 else 0

/-- Chunks that each stream brings to this member in a reduction. -/
def CollOp.expected (o : CollOp) (g : Group) : List (Nat × Nat) :=
  (List.range g.ndim).flatMap (fun lv =>
    let p := g.dim lv
    let steps := if p = 1 then 0 else if o.gathers then 2 * p - 2 else p - 1
    (List.range steps).flatMap (fun h => [true, false].map (fun plus =>
      let s := ringSeg p (g.coord lv) h plus
      let r := g.part' o.count lv s plus
      (streamKey lv s h plus, ceilDiv (r.2 - r.1) (g.chunkBytes / o.stepSize p h)))))

/-- Chunks of a block of bytes; an ALL_TO_ALL block of none still sends one, which carries its SLEN. -/
def Group.blockChunks (g : Group) (n : Nat) : Nat := ceilDiv n g.chunkBytes

/-- Everything that this member awaits has come. -/
def CollOp.allIn (o : CollOp) (g : Group) : Bool :=
  let got := fun k => SMap.get 0 o.got k
  let others := (List.range g.members.length).filter (· ≠ g.rank)
  if o.coll ≤ 2 then (o.expected g).all (fun e => e.2 ≤ got e.1)
  else if o.coll = 3 then others.all (fun r => g.blockChunks o.count ≤ got (streamKey 0 r 0 true))
  else if o.coll = 4 then g.rank = o.root || g.blockChunks o.count ≤ got (streamKey 0 o.root 0 true)
  else others.all (fun r => match o.val 0 r with
    | some n => max 1 (g.blockChunks n) ≤ got (streamKey 0 r 0 true)
    | none => false)

/-- Send a block of bytes to a rank. -/
def CollOp.sendBlock (o : CollOp) (g : Group) (rank h : Nat) (atLeast : Nat) (bs : List Byte) : CollOp :=
  (List.range (max atLeast (g.blockChunks bs.length))).foldl (fun o k =>
    o.queueChunk g rank 0 g.rank true h k ((bs.drop (k * g.chunkBytes)).take g.chunkBytes)) o

/-! ### State and sending -/

/-- A data-plane command that also needs the links: it acts while work is served. -/
def State.serve (s : State) (f : State → State) : Out := if s.env.serving then .next (f s) else .next s


def DataPlane.collOp (dp : DataPlane) (gnum : Nat) : Option CollOp := dp.coll.ops.find? (fun o => o.gnum = gnum)

def DataPlane.setCollOp (dp : DataPlane) (o : CollOp) : DataPlane :=
  { dp with coll := { dp.coll with ops := dp.coll.ops.map (fun x => if x.gnum = o.gnum then o else x) } }

/-- Chunks that may await acknowledgement on a link, by its width code (R391). -/
def chunkLimit (width : Nat) : Nat := if width = 3 then 16 else if width = 2 then 8 else 4

/-- A member's device ID. -/
def Group.device (g : Group) (rank : Nat) : Nat := g.members.getD rank 0

/-- A chunk as a message. -/
def chunkMsg (dp : DataPlane) (dev : Nat) (c : Chunk) : DataPlane :=
  (dp.send "chunk" dev [c.gnum, c.src, c.opseq, c.level, c.segment, b2n c.plus, c.hop, c.index]
    (c.gdig ++ c.opdig ++ c.data) 3).addUsage
    ((dp.group c.gnum).map (·.part) |>.getD 0) (fun u => { u with fabTx := u.fabTx + c.data.length })

/-- Send waiting chunks, oldest first, as far as each chunk's link has room. -/
def pumpChunks (f : Fabric) (g : Group) : List (Nat × Chunk) → CollOp → DataPlane → CollOp × DataPlane
  | [], o, dp => (o, dp)
  | (rank, c) :: r, o, dp =>
    let hop := firstHop f (g.device rank)
    let flying := (dp.coll.ops.flatMap (fun x => if x.gnum = o.gnum then o.unacked.map (fun u => (x.gnum, u))
      else x.unacked.map (fun u => (x.gnum, u)))).filter (fun u => match dp.group u.1 with
        | some g' => firstHop f (g'.device u.2.1) = hop
        | none => false)
    if flying.length < chunkLimit (f.link hop).width then
      pumpChunks f g r { o with unacked := o.unacked ++ [(rank, f.plumb.ns, f.plumb.ns, c)] } (chunkMsg dp (g.device rank) c)
    else pumpChunks f g r { o with toSend := o.toSend ++ [(rank, c)] } dp

/-! ### Ending -/

/-- The ranges that an operation writes. -/
def CollOp.outRanges (o : CollOp) (g : Group) (dp : DataPlane) : List (Nat × Nat) :=
  match o.coll with
  | 1 => [(o.output, o.count * fmtSize o.ofmt)]
  | 2 => [(o.output, ((g.range o.count g.ndim).2 - (g.range o.count g.ndim).1) * fmtSize o.ofmt)]
  | 3 => [(o.output, g.members.length * o.count)]
  | 4 => [(o.output, o.count)]
  | _ => (List.range g.members.length).map (fun r =>
      (o.output + readNat dp.mem.dev (o.table + 32 * r + 16) 8, readNat dp.mem.dev (o.table + 32 * r + 24) 4))

/-- Leave a range of a hub engine's output undefined, as far as its class may write it (R395). -/
def undefineHub (dp : DataPlane) (p : Nat) (r : Nat × Nat) : DataPlane :=
  if r.2 = 0 || (accessCheck dp p none .write r.1 r.2).isSome then dp
  else { dp with mem := dp.mem.write r.1 (freshBytes dp.free r.2), free := dp.free + r.2 }

def noticeCode : NoticeCause → Nat
  | .linkLoss => 0 | .collTimeout => 1 | .peerAbort => 2 | .groupMismatch => 3 | .collMismatch => 4

/-- An abort notice to every other member and to the fabric manager (R394). -/
def sendNotice (s : State) (gnum opseq : Nat) (g : Group) (cause : NoticeCause) : State :=
  let others := g.members.filter (· ≠ s.fb.cfg.id) ++ [s.fb.fmAddr]
  s.setDp (others.foldl (fun dp m => dp.send "abort-notice" m [gnum, opseq, noticeCode cause] []) s.dp)

/-- The next operation carries the next OPSEQ (R395). -/
def bumpOp (dp : DataPlane) (gnum opseq : Nat) : DataPlane :=
  match dp.group gnum with
  | some g => if g.nextOp = opseq then dp.setGroup gnum (some { g with nextOp := opseq + 1 }) else dp
  | none => dp

/-- End an operation. -/
def endOp (dp : DataPlane) (o : CollOp) (status : Option Nat) : DataPlane :=
  hubEnd (bumpOp (dropHub dp o.q o.seq) o.gnum o.opseq) o.q o.seq status

/-- An operation fails: its output is undefined, and a notice goes out when the failure is this member's (R392 to
R395). -/
def failOp (s : State) (o : CollOp) (status : Nat) (cause : Option NoticeCause) : State :=
  match s.dp.group o.gnum with
  | none => s.setDp (endOp s.dp o (some status))
  | some g =>
    let s := s.setDp (endOp ((o.outRanges g s.dp).foldl (fun dp r => undefineHub dp o.part r) s.dp) o (some status))
    match cause with
    | some c => sendNotice s o.gnum o.opseq g c
    | none => s

/-- Refused accesses and poison of an operation (R221, R394). -/
def refuseOp (s : State) (o : CollOp) (f : EFault) : State :=
  failOp (s.setDp (hubFault s.env s.dp o.part collectiveMaster o.seq o.q f)) o f.status
    (if f.status = stPoisonConsumed then some .peerAbort else none)

/-- The finished reduction's output bytes. -/
def CollOp.result (o : CollOp) (g : Group) : List Byte :=
  let r := if o.coll = 1 then (0, o.count) else g.range o.count g.ndim
  (List.range (r.2 - r.1)).flatMap (fun i => leBytes (fmtSize o.ofmt) ((o.val finalLevel (r.1 + i)).getD 0))

/-- Send what may be sent, and complete the operation when everything is in, sent and acknowledged. -/
def settleOp (s : State) (o : CollOp) (g : Group) : State :=
  let (o, dp) := pumpChunks s.fb g o.toSend { o with toSend := [] } s.dp
  let s := s.setDp (dp.setCollOp o)
  let final := o.coll ≤ 2 &&
    !(if o.coll = 1 then o.known finalLevel (0, o.count) else o.known finalLevel (g.range o.count g.ndim))
  if !(o.toSend.isEmpty && o.unacked.isEmpty && o.allIn g) || final then s
  else if o.coll ≤ 2 then
    match fabWrite s.env s.dp o.part o.output (o.result g) with
    | .error f => refuseOp s o f
    | .ok dp => s.setDp (endOp dp o none)
  else s.setDp (endOp s.dp o (if o.truncated then some stCollTruncated else none))

/-- Begin whatever can begin, from level 0 up and back for the gathers. -/
def CollOp.advance (o : CollOp) (g : Group) : CollOp :=
  if o.coll ≤ 2 then ((List.range g.ndim) ++ (List.range g.ndim).reverse).foldl (fun o lv => o.begin_ g lv) o else o

/-! ### Starting -/

/-- Constant-block fields of a collective (R383). -/
structure CollArgs where
  coll : Nat
  gnum : Nat
  opseq : Nat
  redop : Nat
  ifmt : Nat
  wfmt : Nat
  ofmt : Nat
  root : Nat
  count : Nat
deriving DecidableEq, Repr

def collArgs (c : List Byte) : CollArgs :=
  ⟨fld c 1 1, fld c 2 2, fld c 4 4, fld c 8 1, fld c 9 1, fld c 0xA 1, fld c 0xB 1, fld c 0xC 2, fld c 0x10 8⟩

/-- The operation digest (R389). -/
def CollArgs.digest (a : CollArgs) : List Byte :=
  (shake32 (leBytes 4 a.opseq ++ leBytes 1 a.coll ++ leBytes 1 a.redop ++ leBytes 1 a.ifmt ++ leBytes 1 a.wfmt ++
    leBytes 1 a.ofmt ++ leBytes 2 a.root ++ leBytes 8 a.count)).take 4

/-- Why a record cannot start: a bad field, or a format combination outside R384. -/
def CollArgs.check (a : CollArgs) (g : Group) (c : List Byte) : Option Nat :=
  if 2 < a.redop || !zeros c 0xE 2 || (a.coll = 4 && g.members.length ≤ a.root) then some stRecordInvalid
  else if a.coll ≤ 2 && !formatsOk a.ifmt a.wfmt a.ofmt then some stFormatInvalid
  else none

/-- The operation that a record starts. -/
def CollArgs.op (a : CollArgs) (l : Launch) (plumb : Nat) : CollOp :=
  { q := l.q, seq := l.seq, part := l.part, gnum := a.gnum, coll := a.coll, opseq := a.opseq, redop := a.redop, wfmt := a.wfmt,
    ofmt := a.ofmt, count := a.count, root := a.root, output := l.addrs.getD 1 0, table := l.addrs.getD 3 0,
    opdig := a.digest, acc := [], starts := [], got := [], early := [], toSend := [], unacked := [], lastRx := plumb,
    truncated := false }

/-- Read a reduction's input and widen it. -/
def loadReduce (env : Env) (dp : DataPlane) (a : CollArgs) (l : Launch) (o : CollOp) : Except EFault (DataPlane × CollOp) := do
  let data ← fabRead env dp l.part (l.addrs.headD 0) (vecBytes a.ifmt a.count)
  let scales ← if a.ifmt = 3 || a.ifmt = 4 then fabRead env dp l.part (l.addrs.getD 2 0) (ceilDiv a.count 32) else .ok []
  let dp := hubUsedAll env dp l.part [(l.addrs.headD 0, data.length), (l.addrs.getD 2 0, scales.length)]
  pure (dp, (List.range a.count).foldl (fun o i => o.put 0 i (inputVal a.ifmt data scales i)) o)

/-- Read what a gather or broadcast sends, and write this member's own share (R388). -/
def loadMove (env : Env) (dp : DataPlane) (a : CollArgs) (l : Launch) (g : Group) (o : CollOp) :
    Except EFault (DataPlane × CollOp) := do
  if a.coll = 4 && g.rank ≠ a.root then pure (dp, o)
  else
    let data ← fabRead env dp l.part (l.addrs.headD 0) a.count
    let dp := hubUsed env dp l.part false (l.addrs.headD 0) a.count
    let dp ← fabWrite env dp l.part (o.output + (if a.coll = 3 then g.rank * a.count else 0)) data
    let others := (List.range g.members.length).filter (· ≠ g.rank)
    pure (dp, others.foldl (fun o r => o.sendBlock g r 0 0 data) o)

/-- Write an ALL_TO_ALL block's bytes, as far as RMAX admits (R388). -/
def putBlock (env : Env) (dp : DataPlane) (o : CollOp) (rank off : Nat) (bs : List Byte) : Except EFault DataPlane := do
  let e ← fabRead env dp o.part (o.table + 32 * rank) 32
  fabWrite env dp o.part (o.output + fld e 16 8 + off) (bs.take (fld e 24 4 - off))

/-- Store RLEN of a source rank (R388). -/
def putRlen (env : Env) (dp : DataPlane) (o : CollOp) (rank slen : Nat) : Except EFault (DataPlane × Bool) := do
  let e ← fabRead env dp o.part (o.table + 32 * rank) 32
  let dp ← fabWrite env dp o.part (o.table + 32 * rank + 28) (leBytes 4 (min slen (fld e 24 4)))
  pure (dp, decide (fld e 24 4 < slen))

/-- Read the ALL_TO_ALL blocks of a member and queue them, its own among them (R388). -/
def loadBlocks (env : Env) (l : Launch) (g : Group) : List Nat → DataPlane → CollOp → Except EFault (DataPlane × CollOp)
  | [], dp, o => .ok (dp, o)
  | r :: rs, dp, o => do
    let e ← fabRead env dp l.part (o.table + 32 * r) 32
    let data ← fabRead env dp l.part (l.addrs.headD 0 + fld e 0 8) (fld e 8 4)
    let dp := hubUsed env dp l.part false (l.addrs.headD 0 + fld e 0 8) (fld e 8 4)
    if r = g.rank then
      let dp ← putBlock env dp o r 0 data
      let (dp, cut) ← putRlen env dp o r (fld e 8 4)
      loadBlocks env l g rs dp { o with truncated := o.truncated || cut }
    else loadBlocks env l g rs dp (o.sendBlock g r (fld e 8 4) 1 data)

def loadColl (env : Env) (dp : DataPlane) (a : CollArgs) (l : Launch) (g : Group) (o : CollOp) :
    Except EFault (DataPlane × CollOp) :=
  if a.coll ≤ 2 then loadReduce env dp a l o
  else if a.coll = 5 then loadBlocks env l g (List.range g.members.length) dp o
  else loadMove env dp a l g o

/-- Status that a notice brings to the members that receive it (R394). -/
def noticeStatus : NoticeCause → Nat
  | .linkLoss => stLinkLoss | .collTimeout => stCollTimeout | _ => stPeerAbort

/-- Ranks that send chunks to this member in an operation: its ring neighbours, the root, or everyone. -/
def CollOp.senders (o : CollOp) (g : Group) : List Nat :=
  if o.coll ≤ 2 then
    ((List.range g.ndim).flatMap (fun lv =>
      let p := g.dim lv
      let c := g.coord lv
      if p = 1 then [] else [g.ringRank lv ((c + p - 1) % p), g.ringRank lv ((c + 1) % p)])).eraseDups
  else if o.coll = 4 then (if g.rank = o.root then [] else [o.root])
  else (List.range g.members.length).filter (· ≠ g.rank)

/-- Grant credits for an operation that this member has started (R389). -/
def grantCredits (dp : DataPlane) (g : Group) (o : CollOp) : DataPlane :=
  (o.senders g).foldl (fun dp r => dp.send "credit" (g.device r) [o.gnum, o.opseq] [] 2) dp

/-- Begin an operation whose turn has come (R389). -/
def beginOp (s : State) (l : Launch) (a : CollArgs) (g : Group) : State :=
  let o := a.op l s.env.plumb
  match s.dp.coll.notices.find? (fun n => n.1 = a.gnum && n.2.1 = a.opseq) with
  | some n =>
    failOp (s.setDp { s.dp with coll := { s.dp.coll with notices := s.dp.coll.notices.filter (fun m => m ≠ n) } }) o
      (noticeStatus n.2.2) none
  | none =>
    match loadColl s.env s.dp a l g o with
    | .error f => refuseOp s o f
    | .ok (dp, o) =>
      let o := o.advance g
      settleOp (s.setDp (grantCredits { dp with coll := { dp.coll with ops := dp.coll.ops ++ [o] } } g o)) o g

/-- A collective's record at the engine (R383, R389): its group and fields are checked, and it runs when OPSEQ says so,
with at most 16 operations in flight. An OPSEQ that has been used ends it with COLL_MISMATCH. -/
def startColl (s : State) (l : Launch) : State :=
  let a := collArgs l.const
  match usableGroup s.dp l.part a.gnum false with
  | none => s.setDp (hubEnd s.dp l.q l.seq (some stGroupInvalid))
  | some g =>
    if g.nextOp < a.opseq || (s.dp.collOp a.gnum).isSome || 16 ≤ s.dp.coll.ops.length then s
    else if a.opseq < g.nextOp then failOp s (a.op l s.env.plumb) stCollMismatch none
    else match a.check g l.const with
      | some st => failOp s (a.op l s.env.plumb) st none
      | none => beginOp s l a g

/-- Run a collective that a record names; a COLL that R383 does not list ends the record with RECORD_INVALID. -/
def runCollective (q seq coll : Nat) (s : State) : Out :=
  s.serve (fun s =>
    match hubHeld s.dp q seq [1] with
    | none => s
    | some l =>
      let c := fld l.const 1 1
      if s.dp.coll.holds q seq then s
      else if fld l.const 0 1 = 4 && c = coll then startColl s l
      else if (1 ≤ fld l.const 0 1 && fld l.const 0 1 < 4) || (fld l.const 0 1 = 4 && 1 ≤ c && c ≤ 5) then s
      else s.setDp (hubEnd s.dp q seq (some stRecordInvalid)))

/-- ALL_REDUCE (R383 to R387). -/
def execAllReduce (q seq : Nat) (s : State) : Out := runCollective q seq 1 s
/-- REDUCE_SCATTER (R388). -/
def execReduceScatter (q seq : Nat) (s : State) : Out := runCollective q seq 2 s
/-- ALL_GATHER (R388). -/
def execAllGather (q seq : Nat) (s : State) : Out := runCollective q seq 3 s
/-- BROADCAST (R388). -/
def execBroadcast (q seq : Nat) (s : State) : Out := runCollective q seq 4 s
/-- ALL_TO_ALL (R388). -/
def execAllToAll (q seq : Nat) (s : State) : Out := runCollective q seq 5 s

/-! ### Chunks arriving -/

/-- Acknowledge a chunk. -/
def ackChunk (dp : DataPlane) (g : Group) (c : Chunk) : DataPlane :=
  dp.send "chunk-ack" (g.device c.src) [c.gnum, c.opseq, c.level, c.segment, b2n c.plus, c.hop, c.index] [] 2

/-- Take a data-move chunk (R388): the bytes go to their place; an ALL_TO_ALL chunk carries its SLEN as the step. -/
def takeMove (env : Env) (dp : DataPlane) (g : Group) (o : CollOp) (c : Chunk) : Except EFault (DataPlane × CollOp) :=
  let off := c.index * g.chunkBytes
  if o.coll = 3 then do
    let dp ← fabWrite env dp o.part (o.output + c.segment * o.count + off) (c.data.take (o.count - off))
    pure (dp, o)
  else if o.coll = 4 then do
    let dp ← fabWrite env dp o.part (o.output + off) (c.data.take (o.count - off))
    pure (dp, o)
  else do
    let dp ← putBlock env dp o c.segment off c.data
    let (dp, cut) ← if (o.val 0 c.segment).isSome then .ok (dp, false) else putRlen env dp o c.segment c.hop
    pure (dp, { o.put 0 c.segment c.hop with truncated := o.truncated || cut })

/-- The chunk is the next of its stream and can be used now. -/
def CollOp.takes (o : CollOp) (g : Group) (c : Chunk) : Bool :=
  c.index = SMap.get 0 o.got (o.streamOf c) && (2 < o.coll || o.ringReady g c)

/-- Take one chunk and acknowledge it. -/
def takeChunk (env : Env) (dp : DataPlane) (g : Group) (o : CollOp) (c : Chunk) : Except EFault (DataPlane × CollOp) := do
  let (dp, o) ← if o.coll ≤ 2 then .ok (dp, o.takeRing g o.ifmt c) else takeMove env dp g o c
  pure (ackChunk dp g c, { o with got := SMap.set 0 o.got (o.streamOf c) (c.index + 1) }.advance g)

/-- Take held chunks while one can be taken; `fuel` bounds their number. -/
def drainChunks (env : Env) (g : Group) : Nat → DataPlane → CollOp → Except EFault (DataPlane × CollOp)
  | 0, dp, o => .ok (dp, o)
  | k + 1, dp, o =>
    match o.early.find? (fun c => o.takes g c) with
    | none => .ok (dp, o)
    | some c => do
      let (dp, o) ← takeChunk env dp g { o with early := o.early.erase c } c
      drainChunks env g k dp o

/-- Whether a chunk's numbers fit the operation. -/
def CollOp.fits (o : CollOp) (g : Group) (c : Chunk) : Bool :=
  c.src < g.members.length && (if o.coll ≤ 2 then
    c.level < g.ndim && (o.expected g).any (fun e => e.1 = o.streamOf c && c.index < e.2)
  else c.segment = c.src && c.src ≠ g.rank && (o.coll ≠ 4 || c.src = o.root))

/-- Count a chunk that arrived again (R390). -/
def countDuplicate (dp : DataPlane) : DataPlane := { dp with coll := { dp.coll with duplicates := dp.coll.duplicates + 1 } }

/-- A chunk for the running operation: a number already acknowledged is acknowledged again, counted and discarded; one
ahead of a gap is held (R390). -/
def runChunk (s : State) (g : Group) (o : CollOp) (c : Chunk) : State :=
  let o := { o with lastRx := s.env.plumb }
  if !o.fits g c || o.early.contains c then s.setDp (s.dp.setCollOp o)
  else if c.index < SMap.get 0 o.got (o.streamOf c) then s.setDp (countDuplicate (ackChunk (s.dp.setCollOp o) g c))
  else
    let o := { o with early := o.early ++ [c] }
    match drainChunks s.env g o.early.length s.dp o with
    | .error f => refuseOp s o f
    | .ok (dp, o) => settleOp (s.setDp (dp.setCollOp o)) o g

/-- A step record arrives (R401): its 4 KiB entry goes to slot STEP mod 16 of the sender's ring, in the class of the
partition that owns the group (R382), and is acknowledged. -/
def takeStepRecord (s : State) (g : Group) (c : Chunk) : State :=
  if c.gdig ≠ g.gdig || g.members.length ≤ c.src || c.src = g.rank || c.data.length ≠ 4096 then s
  else match fabWrite s.env s.dp g.part (g.ring + (c.src * 16 + c.index % 16) * 4096) c.data with
    | .ok dp => s.setDp (ackChunk dp g c)
    | .error f => s.setDp (hubFault s.env s.dp g.part snapshotMaster 0 0xFFFF f)

/-- COLLECTIVE_CHUNK (R389, R390). A chunk reaches a member that runs no operation of the group only as a resend; in a
snapshot group it is a member's step record (R401, log entry 49). -/
def execCollectiveChunk (c : Chunk) (s : State) : Out :=
  s.serve (fun s =>
    match s.dp.group c.gnum with
    | none => s
    | some g =>
      if !g.ready then s
      else if g.snap then takeStepRecord s g c
      else match s.dp.collOp c.gnum with
        | none =>
          if c.gdig = g.gdig && c.opseq < g.nextOp && c.src < g.members.length then s.setDp (countDuplicate (ackChunk s.dp g c))
          else s
        | some o =>
          if c.gdig ≠ g.gdig then failOp s o stGroupMismatch (some .groupMismatch)
          else if c.opseq < o.opseq && c.src < g.members.length then s.setDp (countDuplicate (ackChunk s.dp g c))
          else if c.opseq ≠ o.opseq || c.opdig ≠ o.opdig then failOp s o stCollMismatch (some .collMismatch)
          else runChunk s g o c)

/-- A step record's acknowledgement (R401): STEP_RECORD completes when every other member has acknowledged. -/
def recordAck (dp : DataPlane) (g : Group) (gnum step peer : Nat) : DataPlane :=
  match dp.coll.snaps.find? (fun o => o.record && o.gnum = gnum && o.step % 2 ^ 32 = step) with
  | none => dp
  | some o =>
    let left := o.awaiting.filter (fun r => g.device r ≠ peer)
    if left.isEmpty then hubEnd (dropHub dp o.q o.seq) o.q o.seq none
    else { dp with coll := { dp.coll with
      snaps := dp.coll.snaps.map (fun x => if x.q = o.q && x.seq = o.seq then { x with awaiting := left } else x) } }

/-- CHUNK_ACK (R390): chunks are acknowledged in order, so the oldest one to that peer is released. In a snapshot group it
acknowledges a step record by its STEP's low 32 bits (R401, log entry 49). -/
def execChunkAck (gnum opseq peer : Nat) (s : State) : Out :=
  s.serve (fun s =>
    match s.dp.group gnum, s.dp.collOp gnum with
    | some g, none => if g.snap then s.setDp (recordAck s.dp g gnum opseq peer) else s
    | some g, some o =>
      if o.opseq ≠ opseq then s
      else match o.unacked.find? (fun u => g.device u.1 = peer) with
        | none => s
        | some u =>
          let o := { o with unacked := o.unacked.erase u, lastRx := s.env.plumb }
          settleOp (s.setDp (s.dp.setCollOp o)) o g
    | _, _ => s)

/-- CHUNK_RESEND (R390): every chunk 100 µs without an acknowledgement goes again, on the current route. -/
def execChunkResend (gnum opseq : Nat) (s : State) : Out :=
  s.serve (fun s =>
    match s.dp.group gnum, s.dp.collOp gnum with
    | some g, some o =>
      if o.opseq ≠ opseq then s
      else
        let due := fun (u : Nat × Nat × Nat × Chunk) => decide (u.2.2.1 + 100000 ≤ s.env.plumb)
        let dp := (o.unacked.filter due).foldl (fun dp u => chunkMsg dp (g.device u.1) u.2.2.2) s.dp
        s.setDp (dp.setCollOp { o with
          unacked := o.unacked.map (fun u => if due u then (u.1, u.2.1, s.env.plumb, u.2.2.2) else u) })
    | _, _ => s)

/-! ### Failures -/

/-- Apply one remap (R382): every operation of a changed group completes with PEER_ABORT, and what a running collective
writes is undefined (R395). -/
def applyRemap (s : State) (r : Remap) : State :=
  (remapped s.dp r).foldl (fun s x =>
    let s := (groupOps s.dp x.1).foldl (fun s l =>
      match s.dp.coll.ops.find? (fun o => o.q = l.q && o.seq = l.seq) with
      | some o => failOp s o stPeerAbort none
      | none => s.setDp (hubEnd (dropHub s.dp l.q l.seq) l.q l.seq (some stPeerAbort))) s
    s.setDp (dropNotices (s.dp.setGroup x.1 (some (x.2.remap x.1 r))) x.1)) s

/-- GROUP_REMAP_APPLY (R382): every scheduled replacement whose T_r has come. -/
def execGroupRemapApply (s : State) : Out :=
  s.serve (fun s =>
    let due := s.dp.coll.remaps.filter (fun r => r.at_ ≤ s.env.plumb)
    due.foldl applyRemap (s.setDp { s.dp with coll := { s.dp.coll with
      remaps := s.dp.coll.remaps.filter (fun r => !(r.at_ ≤ s.env.plumb)) } }))

/-- COLL_TIMEOUT (R393): COLL_TO without a word from a peer. -/
def execCollTimeout (gnum : Nat) (s : State) : Out :=
  s.serve (fun s =>
    match s.dp.group gnum, s.dp.collOp gnum with
    | some g, some o =>
      if o.lastRx + g.collTo * 1000000 ≤ s.env.plumb then failOp s o stCollTimeout (some .collTimeout) else s
    | _, _ => s)

end Sys2Proof.Machine
end

