-- ==== Sys2Proof/Machine/Snapshots.lean ====
section
/-! DEFINITION. Snapshots and recovery (R397 to R406): slots, SNAP_COPY, SNAP_SEND and its parity, step records,
RECONSTRUCT and RESTORE, the snapshot cadence, module loss, and failures of collectives and snapshots (R392, R394). -/

namespace Sys2Proof.Machine

/-! ### Slots (R397) -/

def snapMagic : Nat := 0x534E4150

/-- Role byte of a rank: its data rank, or 0x80 + parity index. -/
def Group.roleByte (g : Group) : Nat := if g.rank < g.k then g.rank else 0x80 + (g.rank - g.k)

/-- A slot header's fields. -/
structure SnapHdr where
  gnum : Nat
  role : Nat
  flags : Nat
  step : Nat
  len : Nat
  plumb : Nat
  gdig : List Byte
  digest : List Byte
  dlist : List (Nat × List Byte)
deriving DecidableEq, Repr

/-- `n` bytes of a list, zero-padded. -/
def padTo (n : Nat) (bs : List Byte) : List Byte := bs.take n ++ List.replicate (n - bs.length) 0

/-- The 4 KiB header. -/
def SnapHdr.bytes (h : SnapHdr) : List Byte :=
  padTo 4096 (leBytes 4 snapMagic ++ leBytes 2 h.gnum ++ leBytes 1 h.role ++ leBytes 1 h.flags ++ leBytes 8 h.step ++
    leBytes 8 h.len ++ leBytes 8 h.plumb ++ padTo 4 h.gdig ++ padTo 28 [] ++ padTo 32 h.digest ++
    h.dlist.flatMap (fun d => leBytes 8 d.1 ++ padTo 32 d.2))

/-- Read a header; none without MAGIC. -/
def hdrOf (b : List Byte) : Option SnapHdr :=
  if fld b 0 4 = snapMagic then
    some { gnum := fld b 4 2, role := fld b 6 1, flags := fld b 7 1, step := fld b 8 8, len := fld b 0x10 8, plumb := fld b 0x18 8,
           gdig := (b.drop 0x20).take 4, digest := (b.drop 0x40).take 32,
           dlist := (List.range 16).map (fun i => (fld b (0x60 + 40 * i) 8, (b.drop (0x68 + 40 * i)).take 32)) }
  else none

def SnapHdr.committed (h : SnapHdr) : Bool := bit h.flags 0

/-- Base of a slot. -/
def Group.slotAt (g : Group) (i : Nat) : Nat := g.slots + i * g.slotLen

/-- The header that a slot of this group holds. -/
def readHdr (env : Env) (dp : DataPlane) (gnum : Nat) (g : Group) (i : Nat) : Except EFault (Option SnapHdr) := do
  let b ← fabRead env dp g.part (g.slotAt i) 4096
  pure ((hdrOf b).filter (fun h => h.gnum = gnum && h.role = g.roleByte))

/-- The slot that does not hold the newest committed snapshot (R398). -/
def chooseSlot (env : Env) (dp : DataPlane) (gnum : Nat) (g : Group) : Except EFault Nat := do
  let h0 ← readHdr env dp gnum g 0
  let h1 ← readHdr env dp gnum g 1
  pure (match h0.filter (·.committed), h1.filter (·.committed) with
    | some a, some b => if a.step < b.step then 0 else 1
    | some _, none => 1
    | none, _ => 0)

/-- The slot that holds a step. -/
def slotOf (env : Env) (dp : DataPlane) (gnum : Nat) (g : Group) (step : Nat) : Except EFault (Option (Nat × SnapHdr)) := do
  let h0 ← readHdr env dp gnum g 0
  let h1 ← readHdr env dp gnum g 1
  pure (match h0.filter (·.step = step), h1.filter (·.step = step) with
    | some a, some b => some (if b.committed && !a.committed then (1, b) else (0, a))
    | some a, none => some (0, a)
    | none, some b => some (1, b)
    | none, none => none)

/-- Set or clear COMMITTED of a slot. -/
def setCommitted (env : Env) (dp : DataPlane) (g : Group) (i : Nat) (v : Bool) : Except EFault DataPlane := do
  let b ← fabRead env dp g.part (g.slotAt i + 7) 1
  fabWrite env dp g.part (g.slotAt i + 7) (leBytes 1 (fld b 0 1 / 2 * 2 + b2n v))

/-! ### Records -/

/-- The constant block of R397. -/
structure SnapArgs where
  op : Nat
  nlost : Nat
  gnum : Nat
  nreg : Nat
  step : Nat
  lost : List Nat
  len : Nat
deriving DecidableEq, Repr

def snapArgs (c : List Byte) : SnapArgs :=
  ⟨fld c 0 1, fld c 1 1, fld c 2 2, fld c 4 2, fld c 8 8, (List.range (min 2 (fld c 1 1))).map (fun i => fld c (0x10 + 2 * i) 2),
   fld c 0x14 4⟩

/-- Field ranges of R397. -/
def SnapArgs.ok (a : SnapArgs) (c : List Byte) : Bool :=
  zeros c 6 2 && zeros c 0x18 136 &&
  (if a.op = 1 || a.op = 5 then 1 ≤ a.nreg && a.nreg ≤ 64
   else if a.op = 3 then 1 ≤ a.len && a.len ≤ 4032
   else if a.op = 4 then 1 ≤ a.nlost && a.nlost ≤ 2 else true)

/-- The record that a snapshot-engine command runs on, with its group; otherwise the state that the command leaves: an invalid
record ends with SNAP_INVALID (R397). -/
def snapRecord (dp : DataPlane) (q seq op : Nat) : Except DataPlane (Launch × SnapArgs × Group) :=
  match hubHeld dp q seq [2] with
  | none => .error dp
  | some l =>
    let a := snapArgs l.const
    if dp.coll.holds q seq || (a.op ≠ op && 1 ≤ a.op && a.op ≤ 5) then .error dp
    else match usableGroup dp l.part a.gnum true with
      | none => .error (hubEnd dp q seq (some stSnapInvalid))
      | some g => if a.op = op && a.ok l.const then .ok (l, a, g) else .error (hubEnd dp q seq (some stSnapInvalid))

/-- Run a snapshot-engine command on its record. -/
def withSnap (dp : DataPlane) (q seq op : Nat) (f : Launch → SnapArgs → Group → DataPlane) : DataPlane :=
  match snapRecord dp q seq op with
  | .error d => d
  | .ok (l, a, g) => f l a g

/-- End a snapshot record on a refused or poisoned access. -/
def snapRefused (env : Env) (dp : DataPlane) (l : Launch) (f : EFault) : DataPlane :=
  hubEnd (hubFault env dp l.part snapshotMaster l.seq l.q f) l.q l.seq (some f.status)

/-- The result of a command's accesses. -/
def snapRun (env : Env) (dp : DataPlane) (l : Launch) (r : Except EFault DataPlane) : DataPlane :=
  match r with
  | .error f => snapRefused env dp l f
  | .ok dp => dp

/-- A region list (R397): addresses and lengths. -/
def regionsOf (b : List Byte) (n : Nat) : List (Nat × Nat) := (List.range n).map (fun i => (fld b (16 * i) 8, fld b (16 * i + 8) 8))

def regionsTotal (rs : List (Nat × Nat)) : Nat := rs.foldl (fun n r => n + r.2) 0

/-- Read regions in list order. -/
def readRegions (env : Env) (dp : DataPlane) (p : Nat) : List (Nat × Nat) → Except EFault (List Byte)
  | [] => .ok []
  | (a, n) :: r => do
    let b ← fabRead env dp p a n
    let bs ← readRegions env dp p r
    pure (b ++ bs)

/-- FEED_EXPOSED as a header flag. -/
def Group.exposedFlag (g : Group) : Nat := 2 * b2n g.feedExposed

/-- SNAP_COPY (R398). -/
def execSnapCopy (q seq : Nat) (s : State) : Out :=
  s.work (fun env dp => withSnap dp q seq 1 (fun l a g =>
    match fabRead env dp l.part (l.addrs.headD 0) (16 * a.nreg) with
    | .error f => snapRefused env dp l f
    | .ok b =>
      let rs := regionsOf b a.nreg
      if g.k ≤ g.rank || rs.any (fun r => r.2 % 64 ≠ 0) || g.slotLen < regionsTotal rs + 4096 then
        hubEnd dp q seq (some stSnapInvalid)
      else match chooseSlot env dp a.gnum g with
        | .error f => snapRefused env dp l f
        | .ok i =>
          match setCommitted env dp g i false with
          | .error f => snapRefused env dp l f
          | .ok dp => snapRun env dp l (do
            let data ← readRegions env dp l.part rs
            let h : SnapHdr := ⟨a.gnum, g.roleByte, g.exposedFlag, a.step, data.length, env.plumb, g.gdig, shake32 data, []⟩
            let dp ← fabWrite env (hubUsedAll env dp l.part rs) l.part (g.slotAt i + 4096) data
            let dp ← fabWrite env dp l.part (g.slotAt i) h.bytes
            pure (hubEnd dp q seq none))))

/-! ### SNAP_SEND (R399) -/

def DataPlane.snapOp (dp : DataPlane) (gnum : Nat) : Option SnapOp := dp.coll.snaps.find? (fun o => o.gnum = gnum && !o.record)
def DataPlane.setSnapOp (dp : DataPlane) (o : SnapOp) : DataPlane :=
  { dp with coll := { dp.coll with snaps := dp.coll.snaps.map (fun x => if x.q = o.q && x.seq = o.seq then o else x) } }
def DataPlane.addSnapOp (dp : DataPlane) (o : SnapOp) : DataPlane := { dp with coll := { dp.coll with snaps := dp.coll.snaps ++ [o] } }

/-- The parity ranks of a group. -/
def Group.parityRanks (g : Group) : List Nat := (List.range g.m).map (· + g.k)

/-- A data member streams its slot to every parity member. -/
def sendSlot (env : Env) (dp : DataPlane) (l : Launch) (a : SnapArgs) (g : Group) : Except EFault DataPlane := do
  match ← slotOf env dp a.gnum g a.step with
  | none => pure (hubEnd dp l.q l.seq (some stSnapInvalid))
  | some (i, h) =>
    let data ← fabRead env dp l.part (g.slotAt i + 4096) (min h.len (g.slotLen - 4096))
    let dp := g.parityRanks.foldl (fun dp r =>
      dp.send "snapshot-stream" (g.device r) [a.gnum, a.step, g.rank, data.length] (h.digest ++ data) 4) dp
    let dp := dp.addUsage l.part (fun u => { u with fabTx := u.fabTx + g.m * data.length })
    let dp := hubUsed env dp l.part false (g.slotAt i + 4096) data.length
    pure (dp.addSnapOp ⟨l.q, l.seq, l.part, a.gnum, a.step, false, i, g.parityRanks, [], []⟩)

/-- A parity member is ready to take streams. -/
def awaitStreams (env : Env) (dp : DataPlane) (l : Launch) (a : SnapArgs) (g : Group) : Except EFault DataPlane := do
  let i ← chooseSlot env dp a.gnum g
  let dp ← setCommitted env dp g i false
  pure (dp.addSnapOp ⟨l.q, l.seq, l.part, a.gnum, a.step, false, i, [], [], []⟩)

/-- A notice for an operation that is yet to start (R394). -/
def waitingNotice (dp : DataPlane) (gnum opseq : Nat) : Option (Nat × Nat × NoticeCause) :=
  dp.coll.notices.find? (fun n => n.1 = gnum && n.2.1 = opseq)

/-- Take a notice that has ended its operation. -/
def dropNotice (dp : DataPlane) (n : Nat × Nat × NoticeCause) : DataPlane :=
  { dp with coll := { dp.coll with notices := dp.coll.notices.filter (fun m => m ≠ n) } }

/-- A snapshot operation that consumed poison tells its group (R394); a snapshot's number in a notice is its STEP's low 32 bits
(log entry 49). -/
def poisonNotice (s : State) (gnum step : Nat) (f : EFault) : State :=
  match s.dp.group gnum with
  | some g => if f.status = stPoisonConsumed then sendNotice s gnum (step % 2 ^ 32) g .peerAbort else s
  | none => s

/-- SNAP_SEND (R399), unless a notice for it has come first (R394). -/
def execSnapSend (q seq : Nat) (s : State) : Out :=
  s.serve (fun s =>
    match snapRecord s.dp q seq 2 with
    | .error d => s.setDp d
    | .ok (l, a, g) =>
      if (s.dp.snapOp a.gnum).isSome then s
      else match waitingNotice s.dp a.gnum (a.step % 2 ^ 32) with
        | some n => s.setDp (hubEnd (dropNotice s.dp n) q seq (some (noticeStatus n.2.2)))
        | none =>
          match if g.rank < g.k then sendSlot s.env s.dp l a g else awaitStreams s.env s.dp l a g with
          | .ok dp => s.setDp dp
          | .error f => poisonNotice (s.setDp (snapRefused s.env s.dp l f)) a.gnum a.step f)

/-- XOR of two byte strings, the shorter taken as zero-padded (R399). -/
def xorBytes : List Byte → List Byte → List Byte
  | [], bs => bs
  | as_, [] => as_
  | a :: as_, b :: bs => (a ^^^ b) :: xorBytes as_ bs

/-- Every byte times a constant of GF(2^8). -/
def gfScale (c : Nat) (bs : List Byte) : List Byte := bs.map (fun b => BitVec.ofNat 8 (gfMul c b.toNat))

/-- What rank `i`'s data adds to parity `k` (R399): itself to P, g^i times itself to Q. -/
def parityTerm (k i : Nat) (data : List Byte) : List Byte := if k = 0 then data else gfScale (gfPow2 i) data

/-- DLIST of the streams that have come. -/
def dlistOf (ss : List (Nat × Nat × List Byte)) : List (Nat × List Byte) :=
  (List.range 16).map (fun i => match ss.find? (fun x => x.1 = i) with
    | some x => x.2
    | none => (0, []))

/-- A parity member has every stream: it commits its slot and acknowledges to every data member. -/
def commitParity (env : Env) (dp : DataPlane) (g : Group) (o : SnapOp) : Except EFault DataPlane := do
  let len := o.streams.foldl (fun n x => max n x.2.1) 0
  let h : SnapHdr := ⟨o.gnum, g.roleByte, 1 + g.exposedFlag, o.step, len, env.plumb, g.gdig, shake32 o.parity, dlistOf o.streams⟩
  let dp ← fabWrite env dp o.part (g.slotAt o.slot + 4096) o.parity
  let dp ← fabWrite env dp o.part (g.slotAt o.slot) h.bytes
  let dp := (List.range g.k).foldl (fun dp r => dp.send "parity-ack" (g.device r) [o.gnum, o.step, g.rank - g.k] [] 2) dp
  pure (hubEnd (dropHub dp o.q o.seq) o.q o.seq none)

/-- A snapshot operation is refused an access or consumes poison. -/
def snapOpRefused (s : State) (o : SnapOp) (f : EFault) : State :=
  poisonNotice (s.setDp (hubEnd (hubFault s.env (dropHub s.dp o.q o.seq) o.part snapshotMaster o.seq o.q f) o.q o.seq (some f.status)))
    o.gnum o.step f

/-- SNAPSHOT_STREAM (R399): accepted once this parity member's own SNAP_SEND for the step has started. A stream that no slot
can hold ends it with SNAP_INVALID. -/
def execSnapshotStream (gnum step rank len : Nat) (digest data : List Byte) (s : State) : Out :=
  s.serve (fun s =>
    match s.dp.group gnum, s.dp.snapOp gnum with
    | some g, some o =>
      if o.step ≠ step || g.rank < g.k || g.k ≤ rank || o.streams.any (fun x => x.1 = rank) then s
      else if g.slotLen < len + 4096 then s.setDp (hubEnd (dropHub s.dp o.q o.seq) o.q o.seq (some stSnapInvalid))
      else
        let o := { o with
          streams := o.streams ++ [(rank, len, digest)]
          parity := xorBytes o.parity (parityTerm (g.rank - g.k) rank (padTo len data)) }
        if o.streams.length < g.k then s.setDp (s.dp.setSnapOp o)
        else match commitParity s.env s.dp g o with
          | .ok dp => s.setDp dp
          | .error f => snapOpRefused s o f
    | _, _ => s)

/-- PARITY_ACK (R399): a data member commits when every parity member has acknowledged. -/
def execParityAck (gnum step parity : Nat) (s : State) : Out :=
  s.serve (fun s =>
    match s.dp.group gnum, s.dp.snapOp gnum with
    | some g, some o =>
      if o.step ≠ step || !o.awaiting.contains (g.k + parity) then s
      else
        let o := { o with awaiting := o.awaiting.erase (g.k + parity) }
        if !o.awaiting.isEmpty then s.setDp (s.dp.setSnapOp o)
        else match setCommitted s.env s.dp g o.slot true with
          | .ok dp => s.setDp (hubEnd (dropHub dp o.q o.seq) o.q o.seq none)
          | .error f => snapOpRefused s o f
    | _, _ => s)

/-! ### Step records (R401) -/

/-- The 4 KiB entry. -/
def stepEntry (plumb rank step : Nat) (payload : List Byte) : List Byte :=
  padTo 4096 (leBytes 8 step ++ leBytes 8 plumb ++ leBytes 2 rank ++ leBytes 2 payload.length ++ leBytes 12 0 ++ shake32 payload ++
    payload)

/-- STEP_RECORD (R401): the entry goes to slot STEP mod 16 of this rank's ring on every other member, and the command waits
for their acknowledgements. -/
def execStepRecord (q seq : Nat) (s : State) : Out :=
  s.work (fun env dp => withSnap dp q seq 3 (fun l a g =>
    match fabRead env dp l.part (l.addrs.headD 0) a.len with
    | .error f => snapRefused env dp l f
    | .ok payload =>
      let others := (List.range g.members.length).filter (· ≠ g.rank)
      let dp := others.foldl (fun dp r =>
        dp.send "step-record" (g.device r) [a.gnum, g.rank, a.step % 16] (stepEntry env.plumb g.rank a.step payload) 4) dp
      let dp := hubUsed env dp l.part false (l.addrs.headD 0) a.len
      let dp := dp.addUsage l.part (fun u => { u with fabTx := u.fabTx + 4096 * others.length })
      dp.addSnapOp ⟨q, seq, l.part, a.gnum, a.step, true, 0, others, [], []⟩))

/-! ### RECONSTRUCT (R405) -/

/-- A source slot: rank, header and data. -/
structure Source where
  rank : Nat
  hdr : SnapHdr
  data : List Byte

/-- The source slots that hold the step. -/
def sourcesOf (gnum step : Nat) (slots : List (Nat × List Byte)) : List Source :=
  slots.filterMap (fun x => match hdrOf x.2 with
    | some h => if h.gnum = gnum && h.step = step then some ⟨x.1, h, padTo h.len (x.2.drop 4096)⟩ else none
    | none => none)

def sourceOf (ss : List Source) (r : Nat) : Option Source := ss.find? (fun x => x.rank = r)

/-- XOR of the surviving data's terms onto a parity. -/
def foldOut (k : Nat) (parity : List Byte) (ds : List Source) : List Byte :=
  ds.foldl (fun acc d => xorBytes acc (parityTerm k d.rank d.data)) parity

/-- Lost data of one rank from P or Q, or of two ranks from both (R405). -/
def rebuildData (g : Group) (ss : List Source) (lostData : List Nat) : Option (List (Nat × List Byte)) :=
  let ds := ss.filter (fun x => x.rank < g.k)
  let par := fun k => (sourceOf ss (g.k + k)).map (fun x => foldOut k x.data ds)
  match lostData with
  | [] => some []
  | [a] =>
    (match par 0, par 1 with
      | some p, _ => some [(a, p)]
      | none, some q => some [(a, gfScale (gfInv (gfPow2 a)) q)]
      | none, none => none)
  | [x, y] =>
    (match par 0, par 1 with
      | some p, some q =>
        let a := min x y
        let b := max x y
        let da := gfScale (gfInv (gfPow2 a ^^^ gfPow2 b)) (xorBytes q (gfScale (gfPow2 b) p))
        some [(a, da), (b, xorBytes p da)]
      | _, _ => none)
  | _ => none

/-- Rebuilt data agrees with the LEN and DIGEST that a surviving parity slot lists; answers the data cut to LEN. -/
def checkedData (g : Group) (ss : List Source) (r : Nat × List Byte) : Option (List Byte) :=
  match ss.find? (fun x => g.k ≤ x.rank) with
  | none => none
  | some x =>
    let d := x.hdr.dlist.getD r.1 (0, [])
    let data := padTo d.1 r.2
    if shake32 data = d.2 then some data else none

/-- A header that RECONSTRUCT writes: COMMITTED and RECONSTRUCTED. -/
def rebuiltHdr (env : Env) (a : SnapArgs) (g : Group) (data : List Byte) (dl : List (Nat × List Byte)) : SnapHdr :=
  ⟨a.gnum, g.roleByte, 5 + g.exposedFlag, a.step, data.length, env.plumb, g.gdig, shake32 data, dl⟩

/-- The slot of this module's rank: its data checked, or its parity recomputed from every data slot. -/
def rebuild (env : Env) (a : SnapArgs) (g : Group) (ss : List Source) : Option (SnapHdr × List Byte) :=
  match rebuildData g ss (a.lost.filter (· < g.k)) with
  | none => none
  | some rs =>
    let checked : List (Option (Nat × List Byte)) := rs.map (fun (r : Nat × List Byte) => (checkedData g ss r).map (fun d => (r.1, d)))
    if checked.any (·.isNone) then none
    else
      let rebuilt : List (Nat × List Byte) := checked.filterMap id
      if g.rank < g.k then
        (rebuilt.find? (fun r => r.1 = g.rank)).map (fun r => (rebuiltHdr env a g r.2 [], r.2))
      else
        let datas := (List.range g.k).map (fun i => match sourceOf ss i with
          | some x => (i, x.data)
          | none => (rebuilt.find? (fun (r : Nat × List Byte) => r.1 = i)).getD (i, []))
        let parity := datas.foldl (fun acc d => xorBytes acc (parityTerm (g.rank - g.k) d.1 d.2)) []
        some (rebuiltHdr env a g parity (dlistOf (datas.map (fun d => (d.1, d.2.length, shake32 d.2)))), parity)

/-- Every rank that is not lost has given its slot, and its parity was committed. -/
def sourcesComplete (g : Group) (lost : List Nat) (ss : List Source) : Bool :=
  (List.range g.members.length).all (fun r => lost.contains r || (match sourceOf ss r with
    | some x => r < g.k || x.hdr.committed
    | none => false))

/-- RECONSTRUCT (R405): `slots` are the surviving members' slots as they were read, by rank. -/
def execReconstruct (q seq : Nat) (slots : List (Nat × List Byte)) (s : State) : Out :=
  s.work (fun env dp => withSnap dp q seq 4 (fun l a g =>
    let ss := (sourcesOf a.gnum a.step slots).filter (fun x => !a.lost.contains x.rank)
    if !a.lost.contains g.rank || !distinct a.lost || a.lost.any (fun r => g.members.length ≤ r) then
      hubEnd dp q seq (some stSnapInvalid)
    else if g.m < a.nlost || !sourcesComplete g a.lost ss then hubEnd dp q seq (some stReconstructFailed)
    else match rebuild env a g ss with
      | none => hubEnd dp q seq (some stReconstructFailed)
      | some (h, data) =>
        if g.slotLen < data.length + 4096 then hubEnd dp q seq (some stReconstructFailed)
        else snapRun env dp l (do
          let dp ← fabWrite env dp l.part (g.slotAt 0 + 4096) data
          let dp ← fabWrite env dp l.part (g.slotAt 0) h.bytes
          pure (hubEnd dp q seq none))))

/-! ### RESTORE (R406) -/

/-- Copy data back into the live regions, in list order. -/
def writeRegions (env : Env) (p : Nat) : List (Nat × Nat) → List Byte → DataPlane → Except EFault DataPlane
  | [], _, dp => .ok dp
  | (a, n) :: r, bs, dp => do
    let dp ← fabWrite env dp p a (bs.take n)
    writeRegions env p r (bs.drop n) dp

/-- RESTORE (R404, R406): a slot whose DIGEST does not match its data completes with RECONSTRUCT_FAILED and copies
nothing. -/
def execRestore (q seq : Nat) (s : State) : Out :=
  s.work (fun env dp => withSnap dp q seq 5 (fun l a g =>
    match fabRead env dp l.part (l.addrs.headD 0) (16 * a.nreg), slotOf env dp a.gnum g a.step with
    | .error f, _ => snapRefused env dp l f
    | _, .error f => snapRefused env dp l f
    | .ok b, .ok sl =>
      let rs := regionsOf b a.nreg
      match sl with
      | none => hubEnd dp q seq (some stSnapInvalid)
      | some (i, h) =>
        if g.k ≤ g.rank || rs.any (fun r => r.2 % 64 ≠ 0) || h.len < regionsTotal rs then hubEnd dp q seq (some stSnapInvalid)
        else snapRun env dp l (do
          let data ← fabRead env dp l.part (g.slotAt i + 4096) (min h.len (g.slotLen - 4096))
          let dp := hubUsed env dp l.part false (g.slotAt i + 4096) data.length
          if shake32 data ≠ h.digest then pure (hubEnd dp q seq (some stReconstructFailed))
          else
            let dp ← writeRegions env l.part rs data dp
            pure (hubEnd dp q seq none))))

/-! ### Failures of collectives and snapshots -/

/-- A snapshot operation ends on a failure: its slot stays uncommitted (R400). -/
def failSnap (dp : DataPlane) (o : SnapOp) (status : Nat) : DataPlane :=
  hubEnd (dropHub dp o.q o.seq) o.q o.seq (some status)

/-- LINK_LOSS (R392): a chunk has been without acknowledgement for 5 ms since its first sending. For a snapshot group the
chunk is one of a stream or a step record under way (R400, R401). -/
def execLinkLoss (gnum : Nat) (s : State) : Out :=
  s.serve (fun s =>
    match s.dp.group gnum, s.dp.collOp gnum, s.dp.coll.snaps.find? (fun o => o.gnum = gnum && !o.awaiting.isEmpty) with
    | _, some o, _ =>
      if o.unacked.any (fun u => u.2.1 + 5000000 ≤ s.env.plumb) then failOp s o stLinkLoss (some .linkLoss) else s
    | some g, none, some o => sendNotice (s.setDp (failSnap s.dp o stLinkLoss)) gnum (o.step % 2 ^ 32) g .linkLoss
    | _, _, _ => s)

/-- Keep a notice for an operation that is yet to start. -/
def keepNotice (s : State) (n : Nat × Nat × NoticeCause) : State :=
  if s.dp.coll.notices.contains n then s
  else s.setDp { s.dp with coll := { s.dp.coll with notices := s.dp.coll.notices ++ [n] } }

/-- ABORT_NOTICE (R394): an operation that runs completes with the notice's status; for one that is yet to start the
notice is kept. The active fabric manager relays it to the members it knows. -/
def execAbortNotice (gnum opseq : Nat) (cause : NoticeCause) (s : State) : Out :=
  s.serve (fun s =>
    match s.dp.group gnum with
    | none => s
    | some g =>
      let s := if s.fb.fabricMgr.active then
          s.setDp ((g.members.filter (· ≠ s.fb.cfg.id)).foldl
            (fun dp m => dp.send "abort-notice" m [gnum, opseq, noticeCode cause] []) s.dp)
        else s
      if g.snap then
        match s.dp.snapOp gnum with
        | some o =>
          if o.step % 2 ^ 32 = opseq then s.setDp (failSnap s.dp o (noticeStatus cause)) else keepNotice s (gnum, opseq, cause)
        | none => keepNotice s (gnum, opseq, cause)
      else match s.dp.collOp gnum with
        | some o =>
          if o.opseq = opseq then failOp s o (noticeStatus cause) none
          else if o.opseq < opseq then keepNotice s (gnum, opseq, cause)
          else s
        | none => if g.nextOp ≤ opseq then keepNotice s (gnum, opseq, cause) else s)

/-! ### Cadence and module loss -/

/-- The snapshot cadence in force, in ms: the last received whose time has come; 0 when none has (R403). -/
def Fabric.tau (f : Fabric) : Nat := ((f.taus.filter (fun t => t.2 ≤ f.plumb.ns)).getLast?.map (·.1)).getD 0

/-- SNAP_TAU_UPDATE (R403). -/
def execSnapTauUpdate (tauMs at_ : Nat) (s : State) : Out :=
  s.hub (fun s => { s with fb := { s.fb with taus := s.fb.taus ++ [(tauMs % 2 ^ 32, at_)] } })

/-- A device ID with another coordinate in a dimension. -/
def withCoord (dev d x : Nat) : Nat :=
  let keep := fun k => if k = d then x else coordOf dev k
  keep 0 * 1024 + keep 1 * 32 + keep 2

/-- The device at a neighbouring position in a dimension of the torus. -/
def neighbour (c : FabCfg) (dev d : Nat) (minus : Bool) : Nat :=
  let n := c.size d
  withCoord dev d ((coordOf dev d + (if minus then n - 1 else 1)) % n)

/-- Width that a module has reported for a link; 3 (16 lanes) when it has not reported. -/
def reportedWidth (m : Manager) (dev i : Nat) : Nat :=
  match m.reports.find? (fun r => r.src = dev) with
  | some r => r.widths.getD i 3
  | none => 3

/-- Way round a ring of `n` from coordinate `a` to `c` (R357, R359): true is −. -/
def wayRound (n a c : Nat) (tieMinus : Bool) : Bool :=
  let up := (c + n - a) % n
  let down := (a + n - c) % n
  if up < down then false else if down < up then true else tieMinus

/-- A way from `a` to `c` passes through `b`. -/
def crosses (n a b c : Nat) (minus : Bool) : Bool :=
  let dist := fun x => if minus then (a + n - x) % n else (x + n - a) % n
  0 < dist b && dist b < dist c

/-- Rewrites that take a module's routes of a dimension the other way where they crossed a lost position of its ring (R404),
as pairs of a coordinate and 1 for the + way. -/
def detouredRoutes (f : Fabric) (dev d a : Nat) : List Nat :=
  let n := f.cfg.size d
  let m := withCoord dev d a
  let tie : Bool := reportedWidth f.fabricMgr m (linkOf d false) < reportedWidth f.fabricMgr m (linkOf d true)
  (List.range n).flatMap (fun c =>
    let minus := wayRound n a c tie
    if crosses n a (coordOf dev d) c minus then [c, b2n minus] else [])

/-- The route rewrites of a restoration: to each module on the lost position's rings whose routes crossed it (R404). -/
def sendRewrites (f : Fabric) (dev at_ : Nat) (dp : DataPlane) : DataPlane :=
  (List.range 3).foldl (fun dp d =>
    ((List.range (f.cfg.size d)).filter (· ≠ coordOf dev d)).foldl (fun dp a =>
      let rs := detouredRoutes f dev d a
      if rs.isEmpty then dp else dp.send "route-rewrite" (withCoord dev d a) (at_ :: d :: rs) []) dp) dp

/-- The fabric manager orders restoration (R404): it disables the neighbours' links to the lost position, and sends route
rewrites and group remaps with one T_r, 15 ms on. The remaps go to every module, as the state does not list a job's, and
a module outside the group keeps nothing of them (log entry 49). -/
def orderRestore (s : State) (dev : Nat) : State :=
  let c := s.fb.cfg
  let links := ((List.range 6).filter (fun i => 1 < c.size (i / 2))).map (fun i => (neighbour c dev (i / 2) (i % 2 = 1), i))
  let dp := links.foldl (fun dp x => dp.send "link-disable" x.1 [if x.2 % 2 = 0 then x.2 + 1 else x.2 - 1] []) s.dp
  let at_ := s.fb.plumb.ns + 15000000
  let dp := sendRewrites s.fb dev at_ dp
  match c.spares.find? (fun x => x ≠ dev && !s.fb.spareUsed.contains x) with
  | none => { s with dp := dp }
  | some sp =>
    { s with
      dp := ((roleScope c .fabric).filter (· ≠ dev)).foldl (fun dp m => dp.send "group-remap" m [dev, sp, at_] []) dp
      fb := { s.fb with spareUsed := s.fb.spareUsed ++ [sp] } }

/-- Every planned link to a module is DOWN here. -/
def linksLost (f : Fabric) (dev : Nat) : Bool :=
  let ls := (List.range 6).filter (fun i => (f.planned i).v && (f.planned i).dev = dev)
  !ls.isEmpty && ls.all (fun i => (f.link i).st = .down)

/-- MODULE_LOSS_REPORT (R402, R404): the fabric manager counts the loss among those of the last 24 hours, once for each
module, and orders restoration; the cell manager passes the report on; a neighbour whose links to the module are DOWN reports to its cell
manager. -/
def execModuleLossReport (dev : Nat) (s : State) : Out :=
  s.hub (fun s =>
    if s.fb.fabricMgr.active then
      let kept := s.fb.losses.filter (fun l => s.fb.plumb.ns < l.1 + 86400000000000)
      if kept.any (fun l => l.2 = dev) then s
      else orderRestore { s with fb := { s.fb with losses := kept ++ [(s.fb.plumb.ns, dev)] } } dev
    else if s.fb.cellMgr.active then { s with dp := s.dp.send "module-loss" s.fb.fmAddr [dev] [] }
    else if linksLost s.fb dev then { s with dp := s.dp.send "module-loss" s.fb.reportTo [dev] [] }
    else s)

end Sys2Proof.Machine
end

