-- ==== Sys2Proof/Machine/Aborts.lean ====
section
/-! DEFINITION. Aborts (R204, R205, R286 to R288): how engines stop, and the QCMD commands ABORT and DESTROY. A hub engine
is named by the GROUP code of its records (R269). -/

namespace Sys2Proof.Machine

/-! ### Per-engine bytes (R288) -/

/-- Byte of the hub engine of a group: collective, snapshot, sampling, NVMe-oF. -/
def groupByte (g : Nat) : Nat := if g ≤ 3 then g + 1 else 5

/-- Set a byte of a closing queue; one set to 3 stays. -/
def Queue.mark (x : Queue) (i v : Nat) : Queue :=
  if x.engBytes.getD i 3 = 3 then x else { x with engBytes := x.engBytes.set i v }

def DataPlane.markQueue (dp : DataPlane) (q i v : Nat) : DataPlane := dp.setQueue q ((dp.queue q).mark i v)

/-- A DMA engine of a tile has work. -/
def Tile.dmaBusy (x : Tile) : Bool := [7, 8].any (fun e => (x.engine e).run.isSome || !(x.engine e).queue.isEmpty)

/-- The tiles that still work for a launch. -/
def tilesHeld (dp : DataPlane) (l : Launch) : List Nat :=
  l.tiles.filter (fun t => match (dp.tile t).launch with
    | some y => y.q = l.q && y.seq = l.seq && (dp.tile t).phase ≠ .stopped
    | none => false)

/-- Bytes when the abort is sent: 2 for an engine with work, also one that an earlier abort has reached and that has not
stopped; it becomes 1 when the abort stops it. -/
def firstBytes (dp : DataPlane) (ls : List Launch) : List Nat :=
  let tiles := ls.flatMap (tilesHeld dp)
  let hub := fun g => 2 * b2n (ls.any (fun l => l.type = .hub && (l.stage = .engine || l.stage = .stopping) && g.contains l.group))
  [2 * b2n (!tiles.isEmpty), 2 * b2n (tiles.any (fun t => (dp.tile t).dmaBusy)), hub [1], hub [2], hub [3], hub [4, 5], 0, 0]

/-! ### Aborting records -/

/-- An abort replaces whatever a record would have completed with, unless it has been collected (R286, R287). -/
def Launch.abort (l : Launch) : Launch :=
  if l.stage = .counted then l else { l with fault := some ⟨stAborted, 0xFFFF, 0, 0⟩, aborting := true }

/-- Abort every record of a queue. -/
def abortQueue (dp : DataPlane) (q : Nat) : DataPlane :=
  { dp with launches := dp.launches.map (fun l => if l.q = q then l.abort else l) }

/-- Count a record that an ABORT or DESTROY ended. -/
def countAborted (dp : DataPlane) (l : Launch) : DataPlane :=
  if l.final = stAborted then dp.setQueue l.q { dp.queue l.q with cmdCount := (dp.queue l.q).cmdCount + 1 } else dp

/-- Complete records in sequence order with their final status. -/
def completeAll (env : Env) (dp : DataPlane) (ls : List Launch) : DataPlane :=
  ls.foldl (fun dp l => complete env (countAborted dp l) l l.final) dp

/-- QUEUE_ABORT (R285, R286): accepted in ACTIVE; records between the counts are discarded. -/
def execQueueAbort (fn q : Nat) (s : State) : Out :=
  s.work (fun _ dp =>
    let x := dp.queue q
    if !fnExists dp fn then dp
    else if !fnOwns dp fn q then qcmdResult dp fn q 1
    else if (dp.part fn).st ≠ .ready || x.st ≠ .active then qcmdResult dp fn q 2
    else
      ((abortQueue (qcmdResult dp fn q 0) q).loseStep q).setQueue q { x with
        st := .aborting, head := x.tail, tailSeen := x.tail, rung := false, cmdCount := 0 })

/-- A record whose engines have all stopped, or that none has. -/
def settled (dp : DataPlane) (l : Launch) : Bool := l.stage.waiting || collectable dp l

/-- ABORT_FINISH (R286): every fetched record completes in sequence order, and the ABORT record is written. -/
def execAbortFinish (q : Nat) (s : State) : Out :=
  s.work (fun env dp =>
    if (dp.queue q).st = .aborting && (dp.ofQueue q).all (settled dp) then
      let dp := completeAll env dp (dp.ofQueue q)
      let dp := putCommandRecord env dp q stSuccess 4 (dp.queue q).cmdCount none
      dp.setQueue q { dp.queue q with st := .active }
    else dp)

/-- Steps 1 to 3 of DESTROY (R287). -/
def closeQueue (env : Env) (dp : DataPlane) (q : Nat) : DataPlane :=
  let dp := (abortQueue dp q).loseStep q
  let x := dp.queue q
  let dp := dp.setQueue q { x with
    st := .closing, rung := false, cmdCount := if x.st = .aborting then x.cmdCount else 0, engBytes := firstBytes dp (dp.ofQueue q) }
  completeAll env dp ((dp.ofQueue q).filter (·.stage.waiting))

/-- QUEUE_DESTROY (R285, R287): accepted in ACTIVE, ABORTING and ERROR. -/
def execQueueDestroy (fn q : Nat) (s : State) : Out :=
  s.work (fun env dp =>
    let st := (dp.queue q).st
    if !fnExists dp fn then dp
    else if !fnOwns dp fn q then qcmdResult dp fn q 1
    else if (dp.part fn).st ≠ .ready || !(st = .active || st = .aborting || st = .error) then qcmdResult dp fn q 2
    else closeQueue env (qcmdResult dp fn q 0) q)

/-- Invalidate the access entries that a queue owns (R263, R287). -/
def dropActe (plumb : Nat) (dp : DataPlane) (q : Nat) : DataPlane :=
  let x := dp.queue q
  let dp := settleGrants plumb dp x.fn
  { dp with mem := { dp.mem with
      acl := x.acte.foldl (fun m i => SMap.set AclEntry.none m (aclKey x.fn 0 i) AclEntry.none) dp.mem.acl } }

/-- DESTROY_FINISH (R287): entries invalidated, the handle table revoked, the DESTROY record written. In a drain the queue
becomes DISABLED without a record (R297). -/
def execDestroyFinish (q : Nat) (s : State) : Out :=
  s.work (fun env dp =>
    let x := dp.queue q
    if x.st = .closing && (dp.ofQueue q).isEmpty && !x.escalated then
      if (dp.part x.fn).st = .ready then
        let dp := (dropActe env.plumb dp q).setQueue q { x with hent := 0 }
        let dp := putCommandRecord env dp q stSuccess 5 x.cmdCount (some (leNat (x.engBytes.map (BitVec.ofNat 8))))
        dp.setQueue q Queue.init
      else dp.setQueue q Queue.init
    else dp)

/-! ### Engines -/

/-- The launch that a tile works for is being aborted. -/
def tileAborting (dp : DataPlane) (t : Nat) : Option TileLaunch :=
  match (dp.tile t).launch with
  | none => none
  | some l =>
    match dp.launch l.q l.seq with
    | none => none
    | some y => if y.aborting && (dp.tile t).phase ≠ .idle && (dp.tile t).phase ≠ .stopped then some l else none

/-- An abort reaches engine `e` of a tile, for a queue whose DESTROY counts what it stops (R288): its cores stop at their next instruction boundary, and the engine discards its
queue; audits in progress are discarded (R115, R204, R205). -/
def abortTile (dp : DataPlane) (t e : Nat) (l : TileLaunch) : DataPlane :=
  let x := dp.tile t
  let busy := (x.engine e).run.isSome || !(x.engine e).queue.isEmpty
  let y := x.stopCores.setEngine e (x.engine e).abort
  let dp := dp.setTile t (Tile.settleStop { y with phase := .stopping, patchBlocks := [] })
  let dp := dp.markQueue l.q 0 1
  if busy && 7 ≤ e then dp.markQueue l.q 1 1 else dp

/-- The records of a hub engine to which an abort has come. -/
def hubAborting (dp : DataPlane) (g : Nat) (st : LStage) : List Launch :=
  dp.launches.filter (fun l => l.type = .hub && l.group = g && l.stage = st && l.aborting && !dp.collector.contains (l.q, l.seq, 2))

/-- An abort reaches a record at its hub engine: one that it has not begun ends at once, one in progress runs to its
preemption point. A collective that has not begun tells its peers too (R394). -/
def abortHub (s : State) (l : Launch) : State :=
  let s := s.setDp (s.dp.markQueue l.q (groupByte l.group) 1)
  if hubBusy s.dp l.q l.seq then s.setDp (s.dp.modLaunch l.q l.seq (fun y => { y with stage := .stopping }))
  else
    let a := collArgs l.const
    let told := if l.group = 1 && fld l.const 0 1 = 4 then usableGroup s.dp l.part a.gnum false else none
    let s := s.setDp (hubEnd s.dp l.q l.seq (some stAborted))
    match told with
    | some g => sendNotice (s.setDp (bumpOp s.dp a.gnum a.opseq)) a.gnum a.opseq g .peerAbort
    | none => s

/-- ENGINE_ABORT (R205). -/
def execEngineAbort (t e : Nat) (s : State) : Out :=
  s.serve (fun s =>
    if t < 168 then
      match tileAborting s.dp t with
      | some l => if e < 9 then s.setDp (abortTile s.dp t e l) else s
      | none => s
    else (hubAborting s.dp e .engine).foldl abortHub s)

/-- A COPY stops at a chunk boundary (R233): the chunks begun are written whole, those after a free number of further ones
not at all (R231, R250, R287). -/
def stopCopy (dp : DataPlane) (t : Nat) (r : Running) : DataPlane :=
  let n := freeCount dp.free r.begun r.writes.length
  let (dp, r) := r.reach t n { dp with free := dp.free + 1 }
  performWrites t dp ((r.writes.take n).flatten.filter (fun w => !w.early))

/-- What an instruction leaves when it stops at its preemption point (R204): a region operation ends its sequence in progress
(R162), a table load completes (R140), a COPY ends its chunk, and what any other instruction was writing is undefined (R91,
R287). -/
def stopWork (env : Env) (dp : DataPlane) (t e : Nat) (r : Running) : DataPlane :=
  if e = 0 then (regionFinish env t (freeCount dp.free 1 allSequences) { dp with free := dp.free + 1 } r).1
  else if 7 ≤ e then stopCopy dp t r
  else if 3 ≤ e && r.entry.op = 2 then r.finish t dp
  else dp.undefine t r.undef

/-- A tile's engine stops, and acknowledges for its launch's queue. -/
def stopEngine (env : Env) (dp : DataPlane) (t e : Nat) (r : Running) : DataPlane :=
  let dp := stopWork env dp t e r
  let dp := match (dp.tile t).launch with
    | some l => if 7 ≤ e then (dp.markQueue l.q 0 1).markQueue l.q 1 1 else dp.markQueue l.q 0 1
    | none => dp
  let y := (dp.tile t).setEngine e Engine.init
  dp.setTile t ((y.kickDogs env.plumb).settleStop)

/-- A hub engine's record stops at its preemption point. -/
def stopHub (s : State) (l : Launch) : State :=
  let s := s.setDp ((s.dp.markQueue l.q (groupByte l.group) 1).modLaunch l.q l.seq (fun y => { y with stage := .engine }))
  match s.dp.coll.ops.find? (fun o => o.q = l.q && o.seq = l.seq), s.dp.coll.snaps.find? (fun o => o.q = l.q && o.seq = l.seq) with
  | some o, _ => failOp s o stAborted (some .peerAbort)
  | none, some o =>
    let s' := s.setDp (failSnap s.dp o stAborted)
    (match s.dp.group o.gnum with
      | some g => sendNotice s' o.gnum (o.step % 2 ^ 32) g .peerAbort
      | none => s')
  | none, none =>
    let dp := nvmeGoAll s.env (nvmeAbort s.dp l.q l.seq)
    let dp := { dp with coll := { dp.coll with
      groups := dp.coll.groups.filter (fun g => match g.2 with
        | some y => y.ready || y.createQ ≠ l.q || y.createSeq ≠ l.seq
        | none => true) } }
    s.setDp (hubEnd dp l.q l.seq (some stAborted))

/-- ENGINE_PREEMPTION_STOP (R204): an engine stops once the remote requests that it has sent have been answered (R233). The
tile acknowledges when its cores and engines have all stopped. -/
def execEnginePreemptionStop (t e : Nat) (s : State) : Out :=
  s.serve (fun s =>
    if t < 168 then
      match ((s.dp.tile t).engine e).run with
      | some r => if ((s.dp.tile t).engine e).stopping && r.remote = 0 && r.todo.isEmpty then s.setDp (stopEngine s.env s.dp t e r) else s
      | none => s
    else (hubAborting s.dp e .stopping).foldl stopHub s)

end Sys2Proof.Machine
end

