-- ==== Sys2Proof/Machine/FieldLog.lean ====
section
/-! DEFINITION. The field log (R426, R427) and the Scrim map (R25, R40, R428). -/

namespace Sys2Proof.Machine

/-- A tile's entry (R426): TPERM, TCNT, the column PERM bits and the column counts. -/
structure TileLog where
  perm : Bool
  cnt : Nat
  cperm : Nat
  ccnt : Nat
deriving DecidableEq, Repr

/-- A listed row. -/
structure RowLog where
  stack : Nat
  pc : Nat
  bank : Nat
  row : Nat
deriving DecidableEq, Repr

/-- A field log. -/
structure FieldLog where
  seq : Nat
  tiles : List TileLog
  rows : List RowLog
deriving DecidableEq, Repr

def logSize : Nat := 0x3260
def logBase (copy : Nat) : Nat := 0x300000 + copy * 0x80000

/-- A copy is valid when its digest matches. -/
def logValid (b : List Byte) : Bool :=
  partNat b 0 4 = 0x464C4F47 && partNat b 4 2 = 1 && shake32 (b.take 0x3240) = part b 0x3240 32

/-- The valid copy of higher SEQ, with its number (R426). -/
def validLog (flash : List Host.Cell) : Option (Nat × List Byte) :=
  let a := readBytes flash (logBase 0) logSize
  let b := readBytes flash (logBase 1) logSize
  if logValid a && (!logValid b || partNat b 8 8 ≤ partNat a 8 8) then some (0, a)
  else if logValid b then some (1, b)
  else none

def readLog (b : List Byte) : FieldLog :=
  { seq := partNat b 8 8
    tiles := (List.range 168).map (fun t =>
      let o := 0x40 + 64 * t
      ⟨bit (partNat b o 1) 0, bits (partNat b o 1) 2 1, partNat b (o + 16) 16, partNat b (o + 32) 32⟩)
    rows := (List.range (min (partNat b 6 2) 256)).map (fun i =>
      let o := 0x2A40 + 8 * i
      ⟨partNat b o 1, partNat b (o + 1) 1, partNat b (o + 2) 1, partNat b (o + 4) 4⟩) }

def TileLog.bytes (t : TileLog) : List Byte :=
  leBytes 1 (b2n t.perm + 2 * t.cnt) ++ List.replicate 15 0 ++ leBytes 16 t.cperm ++ leBytes 32 t.ccnt

def RowLog.bytes (r : RowLog) : List Byte := leBytes 1 r.stack ++ leBytes 1 r.pc ++ leBytes 1 r.bank ++ leBytes 1 0 ++ leBytes 4 r.row

def FieldLog.bytes (l : FieldLog) : List Byte :=
  let b := leBytes 4 0x464C4F47 ++ leBytes 2 1 ++ leBytes 2 l.rows.length ++ leBytes 8 l.seq ++ List.replicate 48 0 ++
    l.tiles.flatMap TileLog.bytes ++ l.rows.flatMap RowLog.bytes ++ List.replicate (8 * (256 - l.rows.length)) 0
  b ++ shake32 b

def FieldLog.empty : FieldLog := ⟨0, List.replicate 168 ⟨false, 0, 0, 0⟩, []⟩

/-- The log in force: empty when no copy is valid (R426). -/
def fieldLog (flash : List Host.Cell) : FieldLog :=
  match validLog flash with
  | some (_, b) => readLog b
  | none => FieldLog.empty

/-- Write the other copy with SEQ + 1 (R426). -/
def putLog (flash : List Host.Cell) (l : FieldLog) : List Host.Cell :=
  let (copy, seq) := match validLog flash with
    | some (c, b) => (1 - c, partNat b 8 8 + 1)
    | none => (0, 1)
  writeBytes flash (logBase copy) ({ l with seq := seq }.bytes)

/-! ### Counts -/

/-- A tested unit's count and PERM bit after a boot (R427). -/
def bump (failed perm : Bool) (cnt : Nat) : Bool × Nat :=
  if failed then (perm || 3 ≤ cnt + 1, min (cnt + 1) 3) else (perm, 0)

/-- A tile's entry after a boot in which it was tested. -/
def TileLog.after (t : TileLog) (tileFailed : Bool) (cols : List Nat) : TileLog :=
  let (p, c) := bump tileFailed t.perm t.cnt
  let col := fun i => bump (cols.contains i) (bit t.cperm i) (bits t.ccnt (2 * i + 1) (2 * i))
  { perm := p, cnt := c
    cperm := ((List.range 128).map (fun i => b2n (col i).1 * 2 ^ i)).foldl (· + ·) 0
    ccnt := ((List.range 128).map (fun i => (col i).2 * 2 ^ (2 * i))).foldl (· + ·) 0 }

/-- Failed columns of a tile in a list. -/
def colsOf (l : List (Nat × Nat)) (t : Nat) : List Nat := (l.filter (fun x => x.1 = t)).map (·.2)

/-- The log after phase 6 (R427): counts of the tested tiles, and the rows that were repaired leave. -/
def nextLog (b : Boot) (l : FieldLog) : FieldLog :=
  { l with
    tiles := (List.range 168).map (fun t =>
      let e := l.tiles.getD t ⟨false, 0, 0, 0⟩
      if b.tested.contains t then e.after (b.tileFail.contains t) (colsOf b.colFail t) else e)
    rows := ((List.range l.rows.length).filter (fun i => !b.rowsRepaired.contains i)).map
      (fun i => l.rows.getD i ⟨0, 0, 0, 0⟩) }

/-! ### The Scrim map -/

/-- Bad columns of a tile (R428). -/
def badColumns (f : Fuses) (l : FieldLog) (b : Boot) (t : Nat) : List Nat :=
  (List.range 128).filter (fun c => (colsOf f.badCols t).contains c ||
    bit (l.tiles.getD t ⟨false, 0, 0, 0⟩).cperm c || (colsOf b.colFail t).contains c)

/-- Effective width of a tile: 0 when it is disabled (R25, R428). -/
def scrimWidth (f : Fuses) (l : FieldLog) (b : Boot) (t : Nat) : Nat :=
  let n := (badColumns f l b t).length
  if f.badTiles.contains t || (l.tiles.getD t ⟨false, 0, 0, 0⟩).perm || b.tileFail.contains t || 4 < n then 0 else 128 - n

/-- The widths of all tiles, unlisted at 128. -/
def scrimMap (f : Fuses) (l : FieldLog) (b : Boot) : SMap Nat :=
  (List.range 168).foldl (fun m t => SMap.set 128 m t (scrimWidth f l b t)) []

/-- Enabled column-equivalents of a map (R40). -/
def columnsOf (w : SMap Nat) : Nat := ((List.range 168).map (fun t => SMap.get 128 w t)).foldl (· + ·) 0

/-- *E* from the factory fuses alone (R433). -/
def fuseColumns (f : Fuses) : Nat := columnsOf (scrimMap f FieldLog.empty Boot.init)

end Sys2Proof.Machine
end

