-- ==== Sys2Proof/Machine/Plumb.lean ====
section
/-! DEFINITION. The Plumb counter (R369 to R375): its advance, the grandmaster's time inputs (R370), exchanges
(R371 to R373), holdover and takeover (R374). -/

namespace Sys2Proof.Machine

/-- The counter in 1/64 ns. -/
def Plumb.units (p : Plumb) : Nat := p.ns * 64 + p.frac

/-- The counter set to a number of 1/64 ns. -/
def Plumb.setUnits (p : Plumb) (u : Nat) : Plumb := { p with ns := u / 64 % 2 ^ 64, frac := u % 64 }

/-- Units that one nanosecond of the reference adds: half of them in the half-rate run, as far as the counter is not level;
otherwise one more or less whenever the slope has made up a unit (R372, R373). Never negative, so the counter never goes
backward (R369). -/
def Plumb.pace (p : Plumb) : Int :=
  if p.half then 64 + max (-32) (min 0 p.rate)
  else if 1000000000 ≤ p.phase + p.slope then 64 + clampI (-1) 1 p.rate
  else 64

/-- One nanosecond of the module reference. -/
def Plumb.tick (p : Plumb) : Plumb :=
  let q := p.setUnits (p.units + p.pace.toNat)
  let rate := p.rate + 64 - p.pace
  { q with rate := rate, half := p.half && decide (rate < 0), phase := (p.phase + p.slope) % 1000000000 }

/-- Work off a correction at up to `slope` units per second of the reference; 10 parts per million are 640,000. -/
def Plumb.correct (p : Plumb) (rate : Int) (slope : Nat) : Plumb :=
  { p with rate := rate, slope := min slope 640000, half := false }

/-- A nanosecond passes (log entry 4): while the hub runs the counter advances, and the links take the messages that wait
for them. -/
def State.idleTick (s : State) : State :=
  if s.awake then { s with fb := { s.fb with plumb := s.fb.plumb.tick } }.inject else s

/-- The change of Plumb state that a command makes; a change of ALIGNED is reported (R367). -/
def State.setPlumb (s : State) (p : Plumb) : State :=
  let t := { s with fb := { s.fb with plumb := p } }
  if p.aligned = s.fb.plumb.aligned then t else t.report

/-! ### Time inputs -/

/-- A valid TIME_TOD message's seconds (R370). -/
def todSeconds (m : List Byte) : Option Nat :=
  if m.length = 16 && m.getD 0 0 = 0x55 && m.getD 1 0 = 0xAA && m.getD 2 0 = 0x01 && m.getD 3 0 = 0x01 &&
      leNat ((m.drop 12).take 2) = 0 && leNat (m.drop 14) = crc16 ((m.drop 2).take 12) then
    some (leNat ((m.drop 4).take 8))
  else none

/-- TIME_TOD on the grandmaster (R370): the first valid message waits for the next edge; an aligned grandmaster never
steps, and a message that disagrees by more than 1 µs is ignored and logged. Others ignore their time inputs. -/
def execTimeTod (msg : List Byte) (s : State) : Out :=
  s.hub (fun s =>
    let p := s.fb.plumb
    match todSeconds msg with
    | none => s
    | some t =>
      if !p.gm then s
      else if !p.aligned then
        if p.synced then s else { s with fb := { s.fb with plumb := { p with tod := some t } } }
      else if 1000 < ((t * 1000000000 : Int) - p.edge).natAbs then
        { s with dp := s.dp.ownerEvent evTodReject 1 0 0 p.ns 0 }
      else { s with fb := { s.fb with plumb := { p with synced := true, source := .tod } } })

/-- Distance of the counter from the nearest whole second, in 1/64 ns. -/
def secondError (u : Nat) : Int :=
  let m := 64000000000
  let r : Int := u % m
  if r ≤ m / 2 then r else r - m

/-- TIME_PPS on the grandmaster (R370): the first edge after a valid message sets the counter, and later edges steer
its rate. The counter never goes backward (R369). -/
def execTimePps (s : State) : Out :=
  s.hub (fun s =>
    let p := s.fb.plumb
    if !p.gm then s
    else match p.tod with
      | some t =>
        let u := max p.units (t * 1000000000 * 64)
        let q := p.setUnits u
        s.setPlumb { q with tod := none, synced := true, source := .tod, aligned := true, edge := q.ns }
      | none =>
        let e := secondError p.units
        let q := if p.synced then p.correct (-e) e.natAbs else p
        { s with fb := { s.fb with plumb := { q with edge := p.ns } } })

/-! ### Exchanges -/

/-- PLUMB_EXCHANGE (R372): every UP link sends an exchange flit with its timestamp, corrected by the link's asymmetry, and
this module's depth, ALIGNED bit and parent (R371). The parent is chosen anew here. -/
def execPlumbExchange (i : Nat) (s : State) : Out :=
  s.hub (fun s =>
    let p := s.fb.plumb
    if i < 6 && s.fb.isUp i then
      let par := if p.gm then 7 else parentOf s.fb
      let pdev := if par < 6 then (s.fb.link par).nbr else 0x7FFF
      { s with fb := { s.fb with plumb := { p with parent := par } } }.onLink i .plumb "plumb"
        [p.depth, b2n p.aligned, pdev, (p.units + (s.fb.link i).asym).toNat]
    else s)

/-- Offset of the child from its parent, in 1/64 ns, from corrected timestamps (R372). -/
def exchangeOffset (t1 t2 t3 t4 : Int) : Int := ((t1 - t2) + (t4 - t3)) / 2

/-- Steering by an offset (R372, R373): an aligned counter changes its rate to remove it in 1 ms, by at most 10 ppm; one
that is not aligned steps forward when it is more than 1 µs behind, runs at half rate when it is ahead, and slews at
10 ppm otherwise. -/
def steer (p : Plumb) (o : Int) : Plumb :=
  if p.aligned then p.correct (-o) (1000 * o.natAbs)
  else if o < -64000 then (p.setUnits (p.units + o.natAbs)).correct 0 0
  else if 0 < o then { p with rate := -o, half := true }
  else p.correct (-o) 640000

/-- The grandmaster named in the configuration that meets an ALIGNED neighbour before it is ALIGNED itself, or one more than
1 µs ahead of it, has returned after its deputy took over: it joins that tree (R374, log entry 47). -/
def rejoin (p : Plumb) (o : Int) (aligned : Bool) : Plumb :=
  if p.gm && aligned && (!p.aligned || decide (o < -64000)) then { p with gm := false, aligned := false, good := 0, source := .tree } else p

/-- ALIGNED after an exchange with the parent (R373, R374). -/
def alignBy (p : Plumb) (o : Int) (parentAligned : Bool) : Plumb :=
  let good := if o.natAbs ≤ 64 then min (p.good + 1) 16 else 0
  if p.source = .holdover && p.aligned then
    if parentAligned && o.natAbs ≤ 64 then { p with source := .tree, good := 16 } else { p with good := good }
  else { p with source := .tree, good := good, aligned := parentAligned && good = 16 }

/-- The Plumb state after an exchange with the parent gave an offset (R372, R373). -/
def Plumb.exchange (p : Plumb) (o : Int) (depth : Nat) (aligned : Bool) : Plumb :=
  { alignBy (steer p o) o aligned with offset := clampI (-32768) 32767 o, depth := depth + 1 }

/-- PLUMB_EXCHANGE_FLIT (R371 to R373): timestamps in 1/64 ns. This module's own, t1 and t4, are corrected here by the
asymmetry measured at training, and the peer has corrected its two (log entry 47). Every link's offset is kept for the
report, and the parent's alone steers the counter. -/
def execPlumbExchangeFlit (i : Nat) (t1 t2 t3 t4 : Int) (depth : Nat) (aligned : Bool) (parentDev : Nat) (s : State) :
    Out :=
  s.hub (fun s =>
    if i < 6 && s.fb.isUp i then
      let l := s.fb.link i
      let o := exchangeOffset (t1 + l.asym) t2 t3 (t4 + l.asym)
      let s := s.setLink i { l with peer := some (depth, aligned, parentDev), offset := some o }
      let p := rejoin s.fb.plumb o aligned
      let p := { p with parent := if p.gm then 7 else parentOf { s.fb with plumb := p } }
      s.setPlumb (if !p.gm && p.parent = i then p.exchange o depth aligned else p)
    else s)

/-- PLUMB_HOLDOVER_EXPIRY (R374): 20 ms without regaining a parent. -/
def execPlumbHoldoverExpiry (s : State) : Out :=
  s.hub (fun s =>
    let p := s.fb.plumb
    if p.source = .holdover && !p.gm then
      s.setPlumb { p with aligned := false, good := 0 }
    else s)

/-- GRANDMASTER_TAKEOVER (R374): the deputy without a path to the grandmaster keeps its counter and takes over. -/
def execGrandmasterTakeover (s : State) : Out :=
  s.hub (fun s =>
    let p := s.fb.plumb
    if s.fb.cfg.valid && s.fb.cfg.gmDep = s.fb.cfg.id && !p.gm && (p.parent = 7 || p.source = .holdover) then
      s.setPlumb { p with gm := true, aligned := true, source := .free, depth := 0, parent := 7, rate := 0, slope := 0,
                          half := false }
    else s)

end Sys2Proof.Machine
end

