-- ==== Sys2Proof/Machine/Bringup.lean ====
section
/-! DEFINITION. Bring-up (R407 to R436): Primer, configuration, training, BIST, reconciliation, firmware, known-answer
and load runs, outcome, watchdog, and recovery (R417). -/

namespace Sys2Proof.Machine

def State.faultPin (s : State) : State := s.setPins { s.mg.pins with faultN := true }

/-- SAFE with a cause (R424, R433, R436): bring-up stops, FAULT_N asserts, and ECOL comes from the fuses alone. -/
def State.toSafe (s : State) (cause unit : Nat) : State :=
  let s := (s.enter .safe).faultPin
  s.setBoot { s.boot with cause := cause, unit := unit, ecol := fuseColumns s.mg.fuses }

def causeHubBist : Nat := 1
def causeDieBist : Nat := 2
def causeD2D : Nat := 3
def causeHbm : Nat := 4
def causeSecurity : Nat := 5
def causeMetering : Nat := 6
def causeHubKat : Nat := 7
def causeThermal : Nat := 8
def causeWatchdog : Nat := 9
def causeConfig : Nat := 10

/-- RECOVERY (R416, R417). -/
def State.toRecovery (s : State) : State := (s.enter .recovery).faultPin

/-- Bring-up is in a phase and goes on. -/
def State.inPhase (s : State) (ph : Nat) : Bool := s.boot.st = .bringup && s.boot.phase = ph && !s.boot.paused

/-! ### Primer and configuration -/

/-- BRINGUP_START (R410, R412): the ROM and fuse checks, the metering block with its BOOT count (R313), and the I3C
target with its Hot-Join request (R452). A failed check leaves the module mute. -/
def execBringupStart (romOk fusesOk : Bool) (s : State) : Out :=
  if s.boot.st = .primer && s.boot.phase = 0 && s.mg.pins.pwrGood && !s.mg.pins.modResetN then
    if romOk && fusesOk then
      let n := (s.mg.regions.bootCount + 1) % 2 ^ 32
      .next { s with
        mg := { s.mg with
          boot := { s.boot with phase := 1 }
          regions := { s.mg.regions with bootCount := n }
          bus := { s.mg.bus with i3cOn := true, hotJoin := true } }
        dp := { s.dp with meter := s.dp.meter.start n s.fb.plumb.ns } }
    else .next (s.setBoot { s.boot with st := .mute }).faultPin
  else .next s

/-- Mode values in force at bring-up (R453): the mode block of a valid user calibration region, or CONFIG. -/
def bootMode (r : Regions) (c : List Byte) : ModeTab :=
  match r.ucal with
  | some u => if r.ucalIntact then u.mode.getD (configMode c) else configMode c
  | none => configMode c

/-- Values of the user calibration region, for its bytes. -/
def UserCal.values (u : UserCal) : List Int :=
  [u.gain, u.offset] ++ u.thermal ++ u.presets.flatMap (fun p => [(p.1 : Int), (p.2 : Int)]) ++
  (match u.mode with
   | some m => [(m.clock : Int), m.pcap, m.ecc, m.fec, m.rmin, m.rmax, m.tmin, m.tmax]
   | none => [])

/-- M_UCAL (R451): the hash of the region, or 0 when it is invalid. -/
def ucalHash (r : Regions) : List Byte :=
  match r.ucal with
  | some u => if r.ucalIntact then shake32 (Config.ucalBytes u.values) else List.replicate 32 0
  | none => List.replicate 32 0

/-- A manager role that the configuration gives this module (R366). A configured manager holds its role, or returns to a
scope whose deputy has taken it and stays in STANDBY (R368, log entry 52). -/
def bootManager (c : FabCfg) (r : Role) (returns : Bool) : Manager :=
  let own : Bool := managerId c r = c.id
  { Manager.init with active := own && !returns, standby := own && returns, deputy := deputyId c r = c.id }

/-- The address of a role's holder at bring-up. -/
def bootAddr (c : FabCfg) (r : Role) (returns : Bool) : Nat :=
  if managerId c r = c.id && returns then deputyId c r else managerId c r

/-- The verified configuration takes effect (R354, R366, R415, R453). The grandmaster waits for its time inputs until
bring-up ends (R370). -/
def State.configure (s : State) (img : List Byte) : State :=
  let c := sectOf img 1
  let f := configFab c
  let mode := bootMode s.mg.regions c
  let lg := validLog s.mg.flash
  let dp := if lg.isNone then s.dp.ownerEvent evFlogLost 4 0 0 s.fb.plumb.ns 0 else s.dp
  let dp := if s.mg.regions.ucalIntact then dp else dp.ownerEvent evUcalInvalid 4 0 0 s.fb.plumb.ns 0
  let returns := (Config.freeByte s.dp.free).getLsbD 0
  let s := s.enter .bringup
  { s with
    dp := { dp with free := dp.free + 1 }
    fb := { s.fb with
      cfg := f, cmAddr := bootAddr f .cell returns, fmAddr := bootAddr f .fabric returns
      fabricMgr := bootManager f .fabric returns, cellMgr := bootManager f .cell returns
      plumb := { s.fb.plumb with gm := decide (f.gm = f.id) }
      shape := { s.fb.shape with clockTarget := clockMhz mode.clock, clockRun := clockMhz mode.clock } }
    mg := { s.mg with
      boot := { s.boot with phase := 2, image := img, log := (lg.map (·.2)).getD [] }
      sec := { s.mg.sec with mode := mode, eccNow := mode.ecc } } }

/-- The measurements of this boot (R450, R451): of the image as it was read, where one was, the user calibration region and
the valid field log. -/
def State.measure (s : State) : State :=
  let x := { s.mg.sec with
    measUcal := ucalHash s.mg.regions
    measFlog := ((validLog s.mg.flash).map (fun l => part l.2 0x3240 32)).getD (List.replicate 32 0) }
  let x := match if s.mg.fuses.lcs = .blank then none else flashImage s.mg with
    | none => x
    | some img => { x with
        rollImg := partNat img 0x10 4, measImage := shake32 img, measSect := [1, 2, 3, 4].flatMap (fun t => shake32 (sectOf img t)) }
  { s with mg := { s.mg with sec := x } }

/-- CONFIGURATION_VERIFY (R415, R416). -/
def execConfigurationVerify (s : State) : Out :=
  if s.boot.st = .primer && s.boot.phase = 1 then
    let s := s.measure
    match verifyImage s.mg with
    | none => .next s.toRecovery
    | some img =>
      .next (if configOk (sectOf img 1) then s.configure img else (s.setBoot { s.boot with image := img }).toSafe causeConfig 0)
  else .next s

/-! ### Training -/

/-- One link's result of phase 3 (R351, R355, R418): a link that does not train, or whose identity does not come, is
ABSENT. -/
def trainOne (r : TrainingResults) (s : State) (i : Nat) : State :=
  match (r.links.getD i none), (r.linkIds.getD i none) with
  | some t, some id =>
    let s := { s with fb := trainLink s.fb s.mg.sec.mode.fec i t }
    if (s.fb.link i).st = .training then classify (sendIdentity s i) i id else s
  | _, _ => { s with fb := s.fb.setLink i { s.fb.link i with st := .absent, disc := if (s.fb.cfg.planOf i).v then 2 else 0 } }

/-- INTERFACE_TRAINING (R418): all interfaces, the row repairs of the field log, and the route table (R357, R359). -/
def execInterfaceTraining (r : TrainingResults) (s : State) : Out :=
  if s.inPhase 2 then
    if !r.d2dOk then .next (s.toSafe causeD2D 0)
    else match r.hbmFail, r.rowsUnrepairable with
      | some pc, _ => .next (s.toSafe causeHbm pc)
      | none, some pc => .next (s.toSafe causeHbm pc)
      | none, none =>
        let s := (List.range 6).foldl (trainOne r) s
        let s := { s with fb := { s.fb with routes := routeTable s.fb } }
        .next { s with
          dp := s.dp.count 0x100 r.rowsRepaired.length
          mg := { s.mg with boot := { s.boot with phase := 3, rowsRepaired := r.rowsRepaired } } }
  else .next s

/-! ### BIST -/

/-- Slices that a controller runs (R421): 592 and 112 for each tile that the fuses do not mark bad; 2,400 in the hub. -/
def sliceGoal (f : Fuses) (d : Nat) : Nat :=
  if d = 2 then 2400
  else 592 + 112 * ((List.range 84).filter (fun i => !f.badTiles.contains (84 * d + i))).length

/-- Count a slice of controller `d`. -/
def Boot.sliceDone (b : Boot) (d : Nat) : Boot := { b with slices := b.slices.set d (b.slices.getD d 0 + 1) }

/-- A tile has been tested in this boot (R427). -/
def Boot.test (b : Boot) (t : Nat) : Boot := if b.tested.contains t then b else { b with tested := b.tested ++ [t] }

def Boot.failTile (b : Boot) (t : Nat) : Boot :=
  if b.tileFail.contains t then b else { b with tileFail := b.tileFail ++ [t] }

def Boot.failColumn (b : Boot) (t c : Nat) : Boot :=
  if b.colFail.contains (t, c) then b else { b with colFail := b.colFail ++ [(t, c)] }

/-- BIST_SLICE (R421, R423, R424): a failing slice is not run again. -/
def execBistSlice (r : SliceResult) (s : State) : Out :=
  let b := s.boot
  if s.inPhase 3 then
    match r with
    | .die d i pass =>
      if 2 ≤ d || sliceGoal s.mg.fuses d ≤ b.slices.getD d 0 then .next s
      else if pass then .next (s.setBoot (b.sliceDone d)) else .next (s.toSafe causeDieBist i)
    | .hub i pass =>
      if sliceGoal s.mg.fuses 2 ≤ b.slices.getD 2 0 then .next s
      else if pass then .next (s.setBoot (b.sliceDone 2)) else .next (s.toSafe causeHubBist i)
    | .column t cols =>
      if 168 ≤ t || s.mg.fuses.badTiles.contains t || sliceGoal s.mg.fuses (t / 84) ≤ b.slices.getD (t / 84) 0 then .next s
      else .next (s.setBoot (cols.foldl (fun b c => b.failColumn t c) ((b.sliceDone (t / 84)).test t)))
    | .tile t pass =>
      if 168 ≤ t || s.mg.fuses.badTiles.contains t || sliceGoal s.mg.fuses (t / 84) ≤ b.slices.getD (t / 84) 0 then .next s
      else
        let b := (b.sliceDone (t / 84)).test t
        .next (s.setBoot (if pass then b else b.failTile t))
  else .next s

/-- HBM_MARCH_TEST (R218, R419): failing rows are repaired and every byte is zeroed; failures beyond the spare rows give
SAFE. -/
def execHbmMarchTest (failed : Option Nat) (repaired : List Nat) (s : State) : Out :=
  if s.inPhase 3 && !s.boot.hbmDone then
    match failed with
    | some pc => .next (s.toSafe causeHbm pc)
    | none =>
      .next { s with
        dp := { s.dp.count 0x100 repaired.length with mem := s.dp.mem.zero 0 hbmSize }
        mg := { s.mg with boot := { s.boot with hbmDone := true } } }
  else .next s

/-- THERMAL_PAUSE (R425): above 100 °C work pauses, and it resumes at 90 °C or below; more than 24 s of pauses in all
gives SAFE. `elapsedMs` is the time since the last reading. -/
def execThermalPause (hottestCentiC : Int) (elapsedMs : Nat) (s : State) : Out :=
  let b := s.boot
  if b.st = .bringup && (b.phase = 3 || b.phase = 5) then
    let ms := if b.paused then b.pausedMs + elapsedMs else b.pausedMs
    let p := if b.paused then decide (9000 < hottestCentiC) else decide (10000 < hottestCentiC)
    let s := s.setBoot { b with paused := p, pausedMs := ms }
    .next (if 24000 < ms then s.toSafe causeThermal 0 else s)
  else .next s

/-! ### Reconciliation and known-answer runs -/

/-- Form the Scrim map (R428). -/
def State.formMap (s : State) : State :=
  let w := scrimMap s.mg.fuses (fieldLog s.mg.flash) s.boot
  { s with dp := { s.dp with widths := w }, mg := { s.mg with boot := { s.boot with ecol := columnsOf w } } }

/-- Every slice has run and the HBM test has ended. -/
def Boot.bistDone (b : Boot) (f : Fuses) : Bool :=
  b.hbmDone && (List.range 3).all (fun d => sliceGoal f d ≤ b.slices.getD d 0)

/-- RECONCILIATION (R428): after phase 4, and again after the known-answer runs. -/
def execReconciliation (s : State) : Out :=
  if s.inPhase 3 && s.boot.bistDone s.mg.fuses then
    let s := s.formMap
    .next (s.setBoot { s.boot with phase := 5, mapped := 1 })
  else if s.inPhase 5 && s.boot.loadDone && s.boot.mapped = 1 then
    let s := s.formMap
    .next (s.setBoot { s.boot with mapped := 2 })
  else .next s

/-- Largest image of a class (R208). -/
def fwLimit (cls : Nat) : Nat := if cls = 8 then 0x18000 else 0x4000

/-- The image that the cores of a class take: their class's of the native format (R208), or the one of every core (R209);
none beyond the format's limit. -/
def fwOf (pkg : List Byte) (cls : Nat) : List Byte :=
  if Config.reloaPackage pkg then (Config.fwReloa pkg).take 0x4000 else (Config.fwImage cls pkg).take (fwLimit cls)

/-- The image passes its core's check: the directory's CRC-32 and limit (R208); the Reloa format states none. -/
def fwPasses (pkg : List Byte) (cls : Nat) : Bool :=
  Config.reloaPackage pkg || ((Config.fwImage cls pkg).length ≤ fwLimit cls && crc32 (fwOf pkg cls) = Config.fwCrc cls pkg)

/-- A core with its firmware region loaded; it starts at offset 0 when its image passes (R208, R209). -/
def Core.loadFirmware (k : Core) (fw : List Byte) (ok : Bool) : Core :=
  { k with mem := writeBytes k.mem 0 fw, pc := privBase, st := if ok then .running else .idle }

/-- FIRMWARE_DELIVERY (R208, R209, R429): the cores of enabled tiles and the hub cores load their images and start. `bad` are
the cores whose copy fails its CRC; a tile with a core that fails, by its copy or by its class's image, fails at start-up,
and a hub core that fails does not start. -/
def execFirmwareDelivery (bad : List CoreId) (s : State) : Out :=
  if s.inPhase 5 && !s.boot.fwOk then
    let pkg := sectOf s.boot.image 2
    let ok := fun (c : CoreId) (cls : Nat) => fwPasses pkg cls && !bad.contains c
    let load := fun (dp : DataPlane) (c : CoreId) (cls : Nat) =>
      dp.setCore c ((dp.core c).loadFirmware (fwOf pkg cls) (ok c cls))
    let tiles := (List.range 168).filter s.dp.enabled
    let dp := tiles.foldl (fun dp t => (List.range 8).foldl (fun dp i => load dp (.tile t i) i) dp) s.dp
    let dp := (List.range 64).foldl (fun dp h => load dp (.hub h) 8) dp
    let failed := tiles.filter (fun t => (List.range 8).any (fun i => !ok (.tile t i) i))
    .next { s with dp := dp, mg := { s.mg with boot := { failed.foldl (fun b t => b.failTile t) s.boot with fwOk := true } } }
  else .next s

/-- Physical column of a logical column under the map in force (R88, R430). -/
def physicalColumn (s : State) (t c : Nat) : Option Nat :=
  ((List.range 128).filter (fun i => !(badColumns s.mg.fuses (fieldLog s.mg.flash) s.boot t).contains i))[c]?

/-- A tile's column digest differs (R430): the first time its physical column fails and the tile runs once more; a
second mismatch fails the tile. `s` is the state of the run, whose map gives the columns. -/
def katColumn (s : State) (b : Boot) (x : Nat × Nat) : Boot :=
  if b.rerun.contains x.1 then b.failTile x.1
  else match physicalColumn s x.1 x.2 with
    | some c => b.failColumn x.1 c
    | none => b

/-- KNOWN_ANSWER_RUN (R430): digests are compared; the runs end once no tile has to run again. -/
def execKnownAnswerRun (r : KatResults) (s : State) : Out :=
  if s.inPhase 5 && s.boot.fwOk && !s.boot.katDone then
    match r.hubFail with
    | some e => .next (s.toSafe causeHubKat e)
    | none =>
      if r.meteringFail then .next (s.toSafe causeMetering 0)
      else if r.securityFail then .next (s.toSafe causeSecurity 0)
      else
        let again := ((r.columnFail.map (·.1)).filter (fun t => !s.boot.rerun.contains t)).eraseDups
        let b := r.tileFail.foldl (fun b t => b.failTile t) (r.columnFail.foldl (katColumn s) s.boot)
        let s := (s.setBoot { b with rerun := b.rerun ++ again, katDone := again.isEmpty })
        .next (if again.isEmpty then s else s.formMap)
  else .next s

/-- LOAD_RUN (R431): a mismatch fails the tile this boot. -/
def execLoadRun (tileFail : List Nat) (s : State) : Out :=
  if s.inPhase 5 && s.boot.katDone && !s.boot.loadDone then
    .next (s.setBoot { tileFail.foldl (fun b t => b.failTile t) s.boot with loadDone := true })
  else .next s

/-! ### Outcome -/

/-- A planned link is MISSING (R355, R432). -/
def linkMissing (f : Fabric) : Bool := (List.range 6).any (fun i => (f.cfg.planOf i).v && (f.link i).disc = 2)

/-- The final state of R432 when no SAFE condition holds. -/
def readyState (ecol : Nat) (missing : Bool) : BootSt := if ecol < 20480 then .derated else if missing then .degraded else .ready

/-- A grandmaster without valid time messages at bring-up runs FREE and is ALIGNED; one whose first valid message waits for
its edge is ALIGNED then (R370, R373). -/
def Plumb.endBringup (p : Plumb) : Plumb :=
  if p.gm && !p.aligned && p.tod.isNone then { p with aligned := true, source := .free } else p

/-- BRINGUP_OUTCOME (R426, R427, R432, R433, R444): the final state, the field log, and the rollback fuses. In SAFE the
state has been entered already, and the log and the time are written here. -/
def execBringupOutcome (ms : Nat) (s : State) : Out :=
  let flash := putLog s.mg.flash (nextLog s.boot (fieldLog s.mg.flash))
  let missing := linkMissing s.fb
  if s.boot.st = .safe && s.boot.phase ≠ 6 then
    .next { s with
      fb := { s.fb with plumb := s.fb.plumb.endBringup }
      mg := { s.mg with flash := flash, boot := { s.boot with
        phase := 6, timeMs := ms % 2 ^ 32, degradedBit := missing, deratedBit := decide (s.boot.ecol < 20480) } } }.report
  else if s.inPhase 5 && s.boot.mapped = 2 then
    let e := columnsOf s.dp.widths
    let s := s.enter (readyState e missing)
    .next { s with
      fb := { s.fb with plumb := s.fb.plumb.endBringup }
      mg := { s.mg with
        flash := flash
        fuses := { s.mg.fuses with rollback := max s.mg.fuses.rollback s.mg.sec.rollImg }
        boot := { s.boot with
          phase := 6, timeMs := ms % 2 ^ 32, ecol := e, deratedBit := decide (e < 20480), degradedBit := missing } } }.report
  else .next s

/-- BRINGUP_WATCHDOG (R411): no final state 120 s after PWR_GOOD; RECOVERY has no time-out (R417). -/
def execBringupWatchdog (s : State) : Out :=
  if s.boot.st = .primer || s.boot.st = .bringup then .next (s.toSafe causeWatchdog 0) else .next s

/-! ### Recovery through PF0 -/

/-- Set RECOV_CTL.RESULT (R417). -/
def State.recovResult (s : State) (r : Nat) : State := { s with dp := s.dp.setRegWord 0 0x021000 (r * 2 ^ 16) }

/-- A session of role OWNER or SERVICE is open on an interface (R417); a BLANK module accepts no upload (R437). -/
def uploadSession (s : State) (iface : Nat) : Bool :=
  s.mg.fuses.lcs ≠ .blank &&
  s.mg.sec.sessions.any (fun x => x.iface = iface && ((x.role = .owner && s.mg.fuses.owners ≠ []) || x.role = .service))

/-- No upload is open on another interface. -/
def uploadFree (s : State) (iface : Nat) : Bool := s.boot.uploadBy.all (fun i => i = iface)

/-- Bytes of RECOV_WIN, 64 KiB at PF0 BAR0 offset 0x03_0000 (R464). -/
def recovWindow (dp : DataPlane) : List Byte := (List.range 16384).flatMap (fun i => leBytes 4 (dp.regWord 0 (0x030000 + 4 * i)))

/-- RECOV_WRITE_CHUNK (R417). -/
def execRecovWriteChunk (s : State) : Out :=
  if s.awake then
    let off := s.dp.regWord 0 0x021004
    if s.boot.st ≠ .recovery then .next (s.recovResult 1)
    else if !uploadSession s 0 || !uploadFree s 0 then .next (s.recovResult 2)
    else if off % 65536 ≠ 0 || imageMax ≤ off then .next (s.recovResult 3)
    else .next ({ s with mg := { s.mg with
      flash := writeBytes s.mg.flash (imageBase + off) (recovWindow s.dp)
      boot := { s.boot with uploadBy := some 0 } } }.recovResult 0)
  else .next s

/-- RECOV_COMMIT (R417): an image that passes resets the module at once. -/
def execRecovCommit (s : State) : Out :=
  if s.awake then
    if s.boot.st ≠ .recovery then .next (s.recovResult 1)
    else if !uploadSession s 0 || !uploadFree s 0 then .next (s.recovResult 2)
    else match verifyImage s.mg with
      | some _ => .next s.restart
      | none => .next ((s.setBoot { s.boot with uploadBy := none }).recovResult 5)
  else .next s

end Sys2Proof.Machine
end

