-- ==== Sys2Proof/Machine/Security.lean ====
section
/-! DEFINITION. Management sessions (R445 to R449), attestation (R451), the mode table (R453, R454), calibration (R459,
R460), keys and ownership (R440 to R442), and the life cycle (R437, R439). -/

namespace Sys2Proof.Machine

/-! ### Messages and responses -/

/-- An interface that can carry messages now (R408, R445): PF0 and the VFs over PCIe, I3C once it is on. -/
def ifaceUp (s : State) (i : Nat) : Bool :=
  if i = 1 then s.mg.bus.i3cOn
  else !s.mg.pins.perstN && (i = 0 || (s.dp.vfEnable && 3 ≤ i && i ≤ s.dp.numVfs + 2))

/-- The 64-byte header and payload of a response (R445). -/
def responseBytes (cmd status session seq : Nat) (payload : List Byte) : List Byte :=
  leBytes 2 cmd ++ leBytes 2 status ++ leBytes 4 session ++ leBytes 4 seq ++ leBytes 4 payload.length ++
  List.replicate 48 0 ++ payload

/-- SES_CTL.RESULT of a mailbox (R445). -/
def sesResult (dp : DataPlane) (iface result : Nat) : DataPlane :=
  if iface = 1 then dp else dp.setRegWord (iface - 2) 0x2000 (result * 2 ^ 16)

/-- The response replaces the request in the interface's window, and RESULT reads 0 (R445). -/
def State.respond (s : State) (m : Msg) (cmd status session : Nat) (payload : List Byte) : State :=
  let w := SMap.set [] s.mg.sec.win m.iface (responseBytes cmd status session m.seq payload)
  { s with dp := sesResult s.dp m.iface 0, mg := { s.mg with sec := { s.mg.sec with win := w } } }

/-- A response that only refuses. -/
def State.refuse (s : State) (m : Msg) (cmd status : Nat) : State := s.respond m cmd status m.session []

/-- Take a message: the interface carries it, its payload fits (R445; a longer one is a malformed header), and a VF's
mailbox takes only GET_CERTS and GET_ATTEST (R448). -/
def State.message (s : State) (m : Msg) (cmd : Nat) (f : State → State) : Out :=
  if s.awake && ifaceUp s m.iface then
    if 4032 < m.payload.length then
      .next { s with dp := sesResult s.dp m.iface 1 }
    else if 2 ≤ m.iface && 2 < cmd then .next (s.refuse m cmd stSesDenied)
    else .next (f s)
  else .next s

def Security.session (x : Security) (id : Nat) : Option Session := x.sessions.find? (fun y => y.id = id)

def Security.setSession (x : Security) (y : Session) : Security :=
  { x with sessions := x.sessions.map (fun z => if z.id = y.id then y else z) }

def State.setSec (s : State) (x : Security) : State := { s with mg := { s.mg with sec := x } }

/-- An OWNER session that holds the role: an owner is enrolled (R442, R446). -/
def ownerHeld (m : Mgmt) (y : Session) : Bool := y.role = .owner && m.fuses.owners ≠ []

/-- A command in a session (R447, R448): the session is open on this interface, SEQ is the next one, and the role is
allowed. The accepted SEQ is recorded. -/
def State.inSession (s : State) (m : Msg) (cmd : Nat) (allowed : Session → Bool) (f : Session → State → State) : Out :=
  s.message m cmd (fun s =>
    match s.mg.sec.session m.session with
    | none => s.refuse m cmd stSesDenied
    | some y =>
      if y.iface ≠ m.iface then s.refuse m cmd stSesDenied
      else if m.seq ≠ y.seq + 1 then s.refuse m cmd stSesInvalid
      else
        let s := s.setSec (s.mg.sec.setSession { y with seq := m.seq })
        if allowed y then f y s else s.refuse m cmd stSesDenied)

/-- The flash lock is free for a session (R448). -/
def flashLockFree (x : Security) (id : Nat) : Bool := x.lock.all (fun l => l = id)

/-- End a session: its lock is freed (R447, R448). -/
def Security.endSession (x : Security) (id : Nat) : Security :=
  { x with sessions := x.sessions.filter (fun y => y.id ≠ id), lock := if x.lock = some id then none else x.lock }

/-! ### Certificates and attestation -/

/-- The public key that a certificate of a type certifies, 1,793 bytes. -/
def certKey (f : Fuses) (type : Nat) : List Byte := (Config.publicKey type f.prov ++ List.replicate 1793 0).take 1793

/-- A certificate (R441): 1 device, 2 metering, which is bound to the device identity key; signed by the Eloapel root. -/
def certificate (f : Fuses) (type : Nat) : List Byte :=
  let b := leBytes 4 0x4B564345 ++ leBytes 2 1 ++ leBytes 1 type ++ leBytes 1 0 ++ leBytes 8 (f.prov % 2 ^ 48) ++
    (f.rootHash ++ List.replicate 32 0).take 32 ++ (if type = 2 then shake32 (certKey f 1) else List.replicate 32 0) ++
    List.replicate 16 0 ++ certKey f type ++ List.replicate 7 0
  b ++ signature 2 b

/-- GET_CERTS (R441): both certificates. -/
def execGetCerts (m : Msg) (s : State) : Out :=
  s.message m 0x01 (fun s => s.respond m 0x01 stSuccess m.session (s.mg.regions.devCert ++ s.mg.regions.metCert))

/-- Metering SEAL (R311, R437): 0 SEALED, 1 UNSEALED, 2 BROKEN. -/
def sealCode (dp : DataPlane) (lcs : LcState) : Nat :=
  if lcs = .provisioned then (if dp.meter.broken then 2 else 0) else 1

/-- BOOT_STATUS.STATE (R435). -/
def bootCode : BootSt → Nat
  | .off => 0 | .mute => 0 | .primer => 0 | .recovery => 1 | .bringup => 2 | .ready => 3 | .degraded => 4 | .derated => 5
  | .safe => 6

/-- BOOT_STATUS (R435). -/
def bootStatus (b : Boot) : Nat :=
  b.ecol * 2 ^ 17 + b2n b.deratedBit * 2 ^ 16 + b2n b.degradedBit * 2 ^ 15 + b.phase * 2 ^ 8 + bootCode b.st

/-- Body of an attestation report (R451). -/
def attestBody (s : State) (nonce : List Byte) : List Byte :=
  let f := s.mg.fuses
  let x := s.mg.sec
  leBytes 4 0x4B564154 ++ leBytes 2 1 ++ leBytes 1 (lcCode f.lcs) ++ leBytes 1 (sealCode s.dp f.lcs) ++
  leBytes 8 (f.prov % 2 ^ 48 + s.fb.cfg.id % 2 ^ 15 * 2 ^ 48) ++ leBytes 4 s.mg.regions.bootCount ++
  leBytes 4 (bootStatus s.boot) ++ leBytes 8 s.fb.plumb.ns ++ nonce ++
  (activeOwner f).getD (List.replicate 32 0) ++ leBytes 4 f.rollback ++ leBytes 4 x.rollImg ++ leBytes 8 0 ++
  x.measImage ++ x.measSect ++ x.measUcal ++ x.measFlog ++
  shake32 ((List.range 168).map (fun t => BitVec.ofNat 8 (SMap.get 128 s.dp.widths t))) ++ List.replicate 144 0

/-- GET_ATTEST (R451): a 32-byte nonce; in every state except BLANK and RETIRED. -/
def execGetAttest (m : Msg) (s : State) : Out :=
  s.message m 0x02 (fun s =>
    if s.mg.fuses.lcs = .blank || s.mg.fuses.lcs = .retired then s.refuse m 0x02 stSesState
    else if m.payload.length ≠ 32 then s.refuse m 0x02 stSesInvalid
    else
      let b := attestBody s m.payload
      s.respond m 0x02 stSuccess m.session (b ++ signature 0 b))

/-! ### Opening and closing -/

/-- OPEN_CHALLENGE (R446): a new nonce replaces the interface's outstanding one. -/
def execOpenChallenge (m : Msg) (r : SesRole) (s : State) : Out :=
  s.message m 0x03 (fun s =>
    let n := Config.entropy s.dp.free
    let x := { s.mg.sec with nonces := SMap.set none s.mg.sec.nonces m.iface (some (n, r)) }
    ({ s.setSec x with dp := { s.dp with free := s.dp.free + 1 } }).respond m 0x03 stSuccess m.session n)

def roleCodeOf : SesRole → Nat
  | .owner => 0 | .operator => 1 | .service => 2

/-- The hashes that R440 lists for a role; while no owner is enrolled, any key may prove itself for ENROLL_OWNER
(R442). -/
def keyListed (s : State) (r : SesRole) (h : List Byte) : Bool :=
  match r with
  | .owner => s.mg.fuses.owners = [] || activeOwner s.mg.fuses = some h
  | .operator => (List.range 8).any (fun i =>
      let k := part (sectOf s.boot.image 1) (0x708 + 32 * i) 32
      k = h && leNat k ≠ 0)
  | .service => s.mg.fuses.svcKeys.contains h

/-- A new session (R446, R447). -/
def State.openSession (s : State) (m : Msg) (r : SesRole) (byKey : Bool) (key : List Byte) : State :=
  let x := s.mg.sec
  let y : Session := ⟨x.nextId, m.iface, r, byKey, key, 0⟩
  let s := s.setSec { x with sessions := x.sessions ++ [y], nextId := x.nextId + 1, nonces := SMap.set none x.nonces m.iface none }
  s.respond m 0x04 stSuccess y.id (leBytes 4 y.id)

/-- What the signature of an OPEN_RESPONSE covers (R446). -/
def challengeBytes (s : State) (m : Msg) (r : SesRole) (n : List Byte) : List Byte :=
  n ++ leBytes 8 (s.mg.fuses.prov % 2 ^ 48) ++ [Config.roleByte (roleCodeOf r)] ++ leBytes 1 m.iface

/-- OPEN_RESPONSE (R446, R447). -/
def execOpenResponse (m : Msg) (r : SesRole) (pf : Proof) (s : State) : Out :=
  s.message m 0x04 (fun s =>
    let x := s.mg.sec
    match SMap.get none x.nonces m.iface with
    | none => s.refuse m 0x04 stSesDenied
    | some (n, r') =>
      if 4 ≤ x.sessions.length then s.refuse m 0x04 stSesBusy
      else if r' ≠ r then s.refuse m 0x04 stSesDenied
      else match pf with
        | .key pub sig =>
          if !keyListed s r (shake32 pub) then s.refuse m 0x04 stSesDenied
          else if !Config.falconVerify pub (challengeBytes s m r n) sig then s.refuse m 0x04 stSesBadSig
          else s.openSession m r true (shake32 pub)
        | .passcode code =>
          if r = .service && (s.mg.fuses.lcs = .test || s.mg.fuses.lcs = .fieldReturn) && code.length ≤ 16 &&
              x.wrongPass < 3 then
            if shake32 code = s.mg.fuses.passHash then s.openSession m r false []
            else (s.setSec { x with wrongPass := x.wrongPass + 1 }).refuse m 0x04 stSesDenied
          else s.refuse m 0x04 stSesDenied)

/-- CLOSE (R447). -/
def execClose (m : Msg) (s : State) : Out :=
  s.inSession m 0x05 (fun _ => true) (fun y s =>
    (s.setSec (s.mg.sec.endSession y.id)).respond m 0x05 stSuccess m.session [])

/-- NONCE_EXPIRY (R446). -/
def execNonceExpiry (iface : Nat) (s : State) : Out :=
  s.hub (fun s => s.setSec { s.mg.sec with nonces := SMap.set none s.mg.sec.nonces iface none })

/-- SESSION_IDLE_TIMEOUT (R447). -/
def execSessionIdleTimeout (session : Nat) (s : State) : Out := s.hub (fun s => s.setSec (s.mg.sec.endSession session))

/-- Sessions of PF0 end at an FLR of PF0 and at PERST_N (R447). -/
def State.endPf0Sessions (s : State) : State :=
  s.setSec ((s.mg.sec.sessions.filter (fun y => y.iface = 0)).foldl (fun x y => x.endSession y.id) s.mg.sec)

/-! ### The mode table -/

def ModeTab.values (t : ModeTab) : List Int := [(t.clock : Int), t.pcap, t.ecc, t.fec, t.rmin, t.rmax, t.tmin, t.tmax]

/-- The values stored for the next boot (R453). -/
def storedMode (s : State) : ModeTab := bootMode s.mg.regions (sectOf s.boot.image 1)

/-- READ_MODE (R453). -/
def execReadMode (m : Msg) (s : State) : Out :=
  s.inSession m 0x10 (fun _ => true) (fun _ s =>
    s.respond m 0x10 stSuccess m.session (Config.payload 0x10 (s.mg.sec.mode.values ++ (storedMode s).values)))

/-- A table with the named fields changed. -/
def ModeTab.apply (t : ModeTab) (c : ModeChange) : ModeTab :=
  ⟨c.clock.getD t.clock, c.pcap.getD t.pcap, c.ecc.getD t.ecc, c.fec.getD t.fec, c.rmin.getD t.rmin, c.rmax.getD t.rmax,
   c.tmin.getD t.tmin, c.tmax.getD t.tmax⟩

/-- Who may name the fields (R448, R453). -/
def modeAllowed (m : Mgmt) (c : ModeChange) (y : Session) : Bool :=
  ownerHeld m y || (y.role = .operator &&
    c.ecc = none && c.fec = none && c.rmin = none && c.rmax = none && c.tmin = none && c.tmax = none)

/-- The user calibration region with a mode block. -/
def Regions.setMode (r : Regions) (t : ModeTab) : Regions :=
  let u := if r.ucalIntact then r.ucal.getD ⟨0, 0, [], [], none⟩ else ⟨0, 0, [], [], none⟩
  { r with ucal := some { u with mode := some t }, ucalIntact := true }

/-- New values come into force; a change of CLOCK starts a glide (R37, R453). -/
def State.useMode (s : State) (t : ModeTab) : State :=
  let s := if t.clock = s.mg.sec.mode.clock then s
    else { s with fb := { s.fb with shape := s.fb.shape.glideTo (clockMhz t.clock) } }
  s.setSec { s.mg.sec with mode := t }

/-- The fields of a change that are stored: all under PERSIST, and ECC always (R454). -/
def storedPart (c : ModeChange) : ModeChange :=
  if c.persist then c else ⟨none, none, c.ecc, none, none, none, none, none, false⟩

/-- SET_MODE (R454). -/
def execSetMode (m : Msg) (chg : ModeChange) (s : State) : Out :=
  s.inSession m 0x11 (modeAllowed s.mg chg) (fun y s =>
    let t := s.mg.sec.mode.apply chg
    let st := (storedMode s).apply (storedPart chg)
    let stores := chg.persist || chg.ecc.isSome
    if !modeOk t || (stores && !modeOk st) then s.refuse m 0x11 stSesInvalid
    else if stores && !flashLockFree s.mg.sec y.id then s.refuse m 0x11 stSesBusy
    else
      let s := s.useMode t
      let s := if stores then { s with mg := { s.mg with regions := s.mg.regions.setMode st } } else s
      s.respond m 0x11 stSuccess m.session [])

/-! ### Telemetry and metering -/

/-- A sensor reading (R457). -/
def sensorValue (s : State) (id : Nat) : Int :=
  if id = 24 then s.fb.shape.clockRun
  else if id = 25 then s.mg.sec.mode.pcap
  else if id = 26 then bootCode s.boot.st
  else if id = 1 then s.mg.pins.vinMv
  else SMap.get 0 s.mg.sensors id

/-- A telemetry counter by TELEM offset (R458, R470); link retrainings are counted in the links. -/
def telemCounter (s : State) (off : Nat) : Nat :=
  if 0x108 ≤ off && off < 0x138 then (s.fb.link ((off - 0x108) / 8)).retrains else SMap.get 0 s.dp.telem off

/-- Offsets of the 64-bit counters (R470). -/
def telemOffsets : List Nat :=
  (List.range 13).map (fun i => 0x100 + 8 * i) ++ (List.range 512).map (fun i => 0x1000 + 8 * i)

/-- READ_TELEM (R352, R458): sensors, counters, and the links' widths and lane groups. -/
def execReadTelem (m : Msg) (s : State) : Out :=
  s.inSession m 0x12 (fun _ => true) (fun _ s =>
    s.respond m 0x12 stSuccess m.session (Config.payload 0x12
      ((List.range 26).map (fun i => sensorValue s (i + 1)) ++ telemOffsets.map (fun o => (telemCounter s o : Int)) ++
       (List.range 6).flatMap (fun i => [((s.fb.link i).width : Int), ((s.fb.link i).lgrp : Int)]))))

/-- METER_READ (R314, R448): a buffered record by SEQ, without an acknowledgement; all zero when it is not buffered. -/
def execMeterRead (m : Msg) (recSeq : Nat) (s : State) : Out :=
  s.inSession m 0x13 (fun y => ownerHeld s.mg y || y.role = .operator) (fun _ s =>
    let b := match s.dp.meter.buffer.find? (fun r => r.seq % 2 ^ 32 = recSeq % 2 ^ 32) with
      | some r => recordBytes r
      | none => List.replicate 1536 0
    s.respond m 0x13 stSuccess m.session b)

/-! ### The image -/

/-- OWNER or SERVICE (R448). -/
def imageRole (s : State) (y : Session) : Bool := ownerHeld s.mg y || y.role = .service

/-- IMAGE_BEGIN (R448): takes the flash lock; an upload open on the other interface keeps it away (R417). -/
def execImageBegin (m : Msg) (s : State) : Out :=
  s.inSession m 0x20 (imageRole s) (fun y s =>
    if s.mg.fuses.lcs = .blank || s.mg.fuses.lcs = .retired then s.refuse m 0x20 stSesState
    else if !flashLockFree s.mg.sec y.id || !uploadFree s m.iface then s.refuse m 0x20 stSesBusy
    else
      let s := s.setSec { s.mg.sec with lock := some y.id }
      (s.setBoot { s.boot with uploadBy := some m.iface }).respond m 0x20 stSuccess m.session [])

/-- IMAGE_WRITE (R449): an offset, a multiple of 2,048, and 2,048 bytes of data, programmed at once. -/
def execImageWrite (m : Msg) (off : Nat) (s : State) : Out :=
  s.inSession m 0x21 (imageRole s) (fun y s =>
    if s.mg.sec.lock ≠ some y.id then s.refuse m 0x21 stSesState
    else if off % 2048 ≠ 0 || imageMax < off + 2048 || m.payload.length ≠ 2056 || partNat m.payload 0 8 ≠ off then
      s.refuse m 0x21 stSesInvalid
    else
      let s := { s with mg := { s.mg with flash := writeBytes s.mg.flash (imageBase + off) (m.payload.drop 8) } }
      s.respond m 0x21 stSuccess m.session [])

/-- IMAGE_COMMIT (R417, R449): the region is read back and verified, the outcome is reported and the lock freed; in
RECOVERY a good image resets the module. -/
def execImageCommit (m : Msg) (s : State) : Out :=
  s.inSession m 0x22 (imageRole s) (fun y s =>
    if s.mg.sec.lock ≠ some y.id then s.refuse m 0x22 stSesState
    else
      let ok := (verifyImage s.mg).isSome
      let s := (s.setSec { s.mg.sec with lock := none }).setBoot { s.boot with uploadBy := none }
      if ok && s.boot.st = .recovery then s.restart
      else s.respond m 0x22 stSuccess m.session (Config.payload 0x22 [(b2n ok : Int)]))

/-! ### Calibration -/

/-- Limits of R459. -/
def calOk (v : CalValues) (t : ModeTab) : Bool :=
  (-200 ≤ v.gain && v.gain ≤ 200) && (-5000 ≤ v.offset && v.offset ≤ 5000) &&
  v.thermal.all (fun x => -200 ≤ x && x ≤ 200) && v.presets.all (fun p => Config.presetOk p.1 p.2) && modeOk t

/-- CAL_WRITE (R448, R459): under the flash lock. Its mode block takes effect as a persisted mode write does. -/
def execCalWrite (m : Msg) (v : CalValues) (s : State) : Out :=
  s.inSession m 0x30 (imageRole s) (fun y s =>
    let t := match v.mode with
      | some c => (storedMode s).apply c
      | none => storedMode s
    if !flashLockFree s.mg.sec y.id then s.refuse m 0x30 stSesBusy
    else if !calOk v t then s.refuse m 0x30 stSesInvalid
    else
      let old := if s.mg.regions.ucalIntact then s.mg.regions.ucal.bind (·.mode) else none
      let mode := if v.mode.isSome then some t else old
      let r := { s.mg.regions with ucal := some ⟨v.gain, v.offset, v.thermal, v.presets, mode⟩, ucalIntact := true }
      let s := { s with mg := { s.mg with regions := r } }
      let s := match v.mode with
        | some c => s.useMode (s.mg.sec.mode.apply c)
        | none => s
      s.respond m 0x30 stSuccess m.session [])

/-- RESTORE_FACTORY (R460): erases the user calibration region. -/
def execRestoreFactory (m : Msg) (s : State) : Out :=
  s.inSession m 0x31 (imageRole s) (fun y s =>
    if !flashLockFree s.mg.sec y.id then s.refuse m 0x31 stSesBusy
    else
      let s := { s with mg := { s.mg with regions := { s.mg.regions with ucal := none, ucalIntact := true } } }
      s.respond m 0x31 stSuccess m.session [])

/-- RESET (R407, R448): refused while a session holds the flash lock; the reset comes 10 ms later. -/
def execReset (m : Msg) (s : State) : Out :=
  s.inSession m 0x40 (fun y => ownerHeld s.mg y || y.role ≠ .owner) (fun _ s =>
    if s.mg.sec.lock.isSome then s.refuse m 0x40 stSesBusy
    else (s.setSec { s.mg.sec with resetDue := true }).respond m 0x40 stSuccess m.session [])

/-! ### Ownership and the life cycle -/

/-- A valid ownership token (R442): a root signature over DEVID and the new key's hash. -/
def tokenOk (s : State) (h token : List Byte) : Bool :=
  Config.falconVerify s.mg.regions.rootKey (leBytes 8 (s.mg.fuses.prov % 2 ^ 48) ++ h) token

/-- The cases in which ENROLL_OWNER is accepted (R442). -/
def enrollAllowed (s : State) (y : Session) (h token : List Byte) : Bool :=
  ownerHeld s.mg y ||
  (s.mg.fuses.owners = [] && y.role = .owner && y.byKey && y.key = h && tokenOk s h token) ||
  (s.mg.fuses.lcs = .fieldReturn && y.role = .service && y.byKey && tokenOk s h token)

/-- ENROLL_OWNER (R442): the next of four owner slots; a full set is refused with SES_STATE. -/
def execEnrollOwner (m : Msg) (newKey token : List Byte) (s : State) : Out :=
  s.inSession m 0x50 (fun y => enrollAllowed s y (shake32 newKey) token) (fun _ s =>
    if 4 ≤ s.mg.fuses.owners.length then s.refuse m 0x50 stSesState
    else
      let s := { s with mg := { s.mg with fuses := { s.mg.fuses with owners := s.mg.fuses.owners ++ [shake32 newKey] } } }
      s.respond m 0x50 stSuccess m.session [])

/-- A life-cycle transition takes place: fuses blow and a reset follows (R439). -/
def State.transition (s : State) (m : Msg) (f : Fuses) : State :=
  let s := { s with mg := { s.mg with fuses := f, sec := { s.mg.sec with resetDue := true } } }
  s.respond m 0x51 stSuccess m.session []

/-- LC_TRANSITION (R439). -/
def execLcTransition (m : Msg) (target : LcState) (s : State) : Out :=
  s.inSession m 0x51 (fun y => ownerHeld s.mg y || y.role = .service) (fun y s =>
    let f := s.mg.fuses
    let no := s.refuse m 0x51 stSesState
    let denied := s.refuse m 0x51 stSesDenied
    match f.lcs, target with
    | .test, .provisioned =>
      if y.role ≠ .service then denied
      else if !s.mg.regions.factoryCal then no
      else
        let r := { s.mg.regions with devCert := certificate f 1, metCert := certificate f 2 }
        { s with mg := { s.mg with regions := r } }.transition m { f with lcs := .provisioned }
    | .provisioned, .fieldReturn =>
      if y.role = .owner then (s.setSec { s.mg.sec with consent := true }).respond m 0x51 stSuccess m.session []
      else if !(y.role = .service && y.byKey) then denied
      else if s.mg.sec.consent then s.transition m { f with lcs := .fieldReturn } else no
    | .fieldReturn, .provisioned =>
      if !(y.role = .service && y.byKey) then denied
      else if f.returns < 3 then s.transition m { f with lcs := .provisioned, returns := f.returns + 1 } else no
    | .retired, _ => no
    | _, .retired => if y.byKey then s.transition m { f with lcs := .retired, keysDestroyed := true } else denied
    | _, _ => no)

/-- TEST_UNLOCK (R448): SERVICE in FIELD_RETURN. -/
def execTestUnlock (m : Msg) (s : State) : Out :=
  s.inSession m 0x52 (fun y => y.role = .service) (fun _ s =>
    if s.mg.fuses.lcs = .fieldReturn then
      (s.setSec { s.mg.sec with testOpen := true }).respond m 0x52 stSuccess m.session []
    else s.refuse m 0x52 stSesState)

/-- FLOG_CLEAR (R426, R448): both copies are written empty. -/
def execFlogClear (m : Msg) (s : State) : Out :=
  s.inSession m 0x53 (fun y => y.role = .service) (fun _ s =>
    if s.mg.fuses.lcs = .fieldReturn then
      let b := FieldLog.empty.bytes
      let fl := writeBytes (writeBytes s.mg.flash (logBase 0) b) (logBase 1) b
      { s with mg := { s.mg with flash := fl } }.respond m 0x53 stSuccess m.session []
    else s.refuse m 0x53 stSesState)

end Sys2Proof.Machine
end

