-- ==== Sys2Proof/Machine/Bus.lean ====
section
/-! DEFINITION. The management bus: I3C, MCTP and PLDM (R452, R457), and JTAG (R438). -/

namespace Sys2Proof.Machine

/-- A command of the I3C target, which Primer enables (R412, R452). -/
def State.onBus (s : State) (f : State → Bus → Bus) : Out :=
  if s.awake && s.mg.bus.i3cOn then .next { s with mg := { s.mg with bus := f s s.mg.bus } } else .next s

/-- A PLDM command over the assigned address, answered with bytes that DSP0240 and DSP0248 lay out. -/
def State.pldm (s : State) (cmd : Nat) (vals : State → List Int) : Out :=
  s.onBus (fun s b => if b.dynAddr.isSome then { b with resp := Config.pldmReply cmd (vals s) } else b)

/-- The 64-bit ENTDAA word: provisioned ID, BCR 0x26, DCR 0x00, most significant byte first (R452). -/
def entdaaWord (prov : Nat) : List Byte := (leBytes 8 (prov % 2 ^ 48 * 2 ^ 16 + 0x2600)).reverse

/-- ENTDAA (R452): a module without an address sends its word, and the winner takes the address; its Hot-Join is then
served. -/
def execEntdaa (addr : Nat) (won : Bool) (s : State) : Out :=
  s.onBus (fun s b =>
    if b.dynAddr.isSome then b
    else
      let b := { b with resp := entdaaWord s.mg.fuses.prov }
      if won then { b with dynAddr := some (addr % 128), hotJoin := false } else b)

/-- RSTDAA (R452). -/
def execRstdaa (s : State) : Out := s.onBus (fun _ b => { b with dynAddr := none })

/-- SET_ENDPOINT_ID (R452). -/
def execSetEndpointId (eid : Nat) (s : State) : Out :=
  s.onBus (fun _ b => if b.dynAddr.isSome then { b with eid := eid % 256 } else b)

/-- GET_TID. -/
def execGetTid (s : State) : Out := s.pldm 0x02 (fun _ => [])
/-- GET_PLDM_VERSION. -/
def execGetPldmVersion (type : Nat) (s : State) : Out := s.pldm 0x03 (fun _ => [(type : Int)])
/-- GET_PLDM_TYPES. -/
def execGetPldmTypes (s : State) : Out := s.pldm 0x04 (fun _ => [])
/-- GET_PLDM_COMMANDS. -/
def execGetPldmCommands (type : Nat) (s : State) : Out := s.pldm 0x05 (fun _ => [(type : Int)])
/-- GET_PDR. -/
def execGetPdr (handle : Nat) (s : State) : Out := s.pldm 0x51 (fun _ => [(handle : Int)])
/-- GET_SENSOR_READING (R457): a numeric sensor, 1 to 25. -/
def execGetSensorReading (id : Nat) (s : State) : Out :=
  s.pldm 0x11 (fun s => if 1 ≤ id && id ≤ 25 then [(id : Int), sensorValue s id] else [(id : Int)])
/-- GET_STATE_SENSOR_READINGS (R457): the state sensor, 26. -/
def execGetStateSensorReadings (id : Nat) (s : State) : Out :=
  s.pldm 0x21 (fun s => if id = 26 then [(id : Int), sensorValue s id] else [(id : Int)])

/-! ### JTAG -/

/-- A JTAG command: the port works while the rails are up. -/
def State.jtag (s : State) (f : Bus → Bus) : Out :=
  if s.mg.boot.st = .off then .next s else .next { s with mg := { s.mg with bus := f s.mg.bus } }

/-- BYPASS: the one-bit register, which captures 0, lies between TDI and TDO. -/
def Bus.bypass (b : Bus) : Bus := { b with ir := .bypass, driven := false, tdo := [false] }

/-- The boundary may be driven: BOOT_STATUS.STATE reads PRIMER, RECOVERY, BRINGUP or SAFE (R438). -/
def mayDrive (b : BootSt) : Bool := !b.isReady

/-- A boundary-driving instruction, which acts as BYPASS in a READY state (R438). -/
def Bus.drive (b : Bus) (st : BootSt) (ir : JtagIr) : Bus :=
  if mayDrive st then { b with ir := ir, driven := true, tdo := b.boundary } else b.bypass

/-- BYPASS. -/
def execBypass (s : State) : Out := s.jtag Bus.bypass

/-- The identification code (R438): version 0x1, part 0x4160, the manufacturer identity, and 1. -/
def idcodeWord : Nat := 0x1 * 2 ^ 28 + 0x4160 * 2 ^ 12 + Config.jedecId % 2 ^ 11 * 2 + 1

/-- IDCODE. -/
def execIdcode (s : State) : Out :=
  s.jtag (fun b => { b with ir := .idcode, driven := false, tdo := (List.range 32).map (fun i => bit idcodeWord i) })

/-- SAMPLE_PRELOAD: the captured register goes out and the new contents come in. -/
def execSamplePreload (boundary : List Bool) (s : State) : Out :=
  s.jtag (fun b => { b with ir := .sample, driven := false, tdo := b.boundary, boundary := boundary })

/-- EXTEST. -/
def execExtest (s : State) : Out := s.jtag (fun b => b.drive s.mg.boot.st .extest)
/-- EXTEST_PULSE. -/
def execExtestPulse (s : State) : Out := s.jtag (fun b => b.drive s.mg.boot.st .extestPulse)
/-- EXTEST_TRAIN. -/
def execExtestTrain (s : State) : Out := s.jtag (fun b => b.drive s.mg.boot.st .extestTrain)

/-- The test engine is open (R437): in BLANK and TEST, and in FIELD_RETURN after TEST_UNLOCK. -/
def testEngineOpen (m : Mgmt) : Bool :=
  m.fuses.lcs = .blank || m.fuses.lcs = .test || (m.fuses.lcs = .fieldReturn && m.sec.testOpen)

/-- Program fuses (R439): fuses are only ever added to. BLANK goes to TEST with the hashes and keys that it fuses, and a
whole-module reset follows 10 ms later. -/
def burn (m : Mgmt) (op : FuseOp) : Mgmt :=
  let f := m.fuses
  match op with
  | .toTest root pass keys =>
    if f.lcs = .blank then
      { m with fuses := { f with lcs := .test, rootHash := root, passHash := pass, svcKeys := keys }
               sec := { m.sec with resetDue := true } }
    else m
  | .identity prov vendor iana => { m with fuses := { f with prov := f.prov ||| prov, vendor := f.vendor ||| vendor, iana := f.iana ||| iana } }
  | .badTile t => if f.badTiles.contains t then m else { m with fuses := { f with badTiles := f.badTiles ++ [t] } }
  | .badColumn t c => if f.badCols.contains (t, c) then m else { m with fuses := { f with badCols := f.badCols ++ [(t, c)] } }

/-- Every byte of a range is backed. -/
def backedRange (dp : DataPlane) (a n : Nat) : Bool := (List.range n).all (fun i => backed dp (a + i))

/-- Bits of a byte string, the first byte's least significant bit first. -/
def bitsOf (bs : List Byte) : List Bool := bs.flatMap (fun b => (List.range 8).map b.getLsbD)

/-- A private instruction of the open test engine (R438, log entry 76): what internal scan shifts out is not stated, and
memory access reads and writes device memory. -/
def State.testOp (s : State) (op : TestOp) : State :=
  let out := fun (s : State) (bits : List Bool) =>
    { s with mg := { s.mg with bus := { s.mg.bus with ir := .testEngine, driven := false, tdo := bits } } }
  match op with
  | .scan tdi =>
    let n := tdi.length
    out { s with dp := { s.dp with free := s.dp.free + n } } ((freshBytes s.dp.free n).map (·.getLsbD 0))
  | .read a n =>
    if backedRange s.dp a n then out s (bitsOf (readBytes s.dp.mem.dev a n))
    else out { s with dp := { s.dp with free := s.dp.free + n } } (bitsOf (freshBytes s.dp.free n))
  | .write a bs => out (if backedRange s.dp a bs.length then { s with dp := { s.dp with mem := s.dp.mem.write a bs } } else s) []
  | .fuse f => out { s with mg := burn s.mg f } []

/-- TEST_ENGINE_INSTRUCTION (R438, R439): BYPASS while the test engine is locked. -/
def execTestEngineInstruction (op : TestOp) (s : State) : Out :=
  if testEngineOpen s.mg && s.mg.boot.st ≠ .off then .next (s.testOp op) else s.jtag Bus.bypass

end Sys2Proof.Machine
end

