-- ==== Sys2Proof/Machine/Fyrath.lean ====
section
/-! DEFINITION. The instructions of the Fyrath cores (R177 to R207): integer and FP32 operations, control flow, loads
and stores, atomics and fences, engine issue, tokens, events, and the system instructions. -/

namespace Sys2Proof.Machine

/-! ### Integer and FP32 operations -/

/-- Quotient of R180's divide. A divisor of 0, a quotient that does not fit, and a signed quotient that is not whole
and negative have no stated result: those take a free value (log entry 13). -/
def divide (sg w32 : Bool) (w : Nat) (a b : U64) : Nat :=
  let x := a.toNat % 2 ^ w
  let y := b.toNat % 2 ^ w
  let xi := signedOf w x
  let yi := signedOf w y
  if y = 0 then (Config.divCorner sg w32 a b).toNat
  else if !sg then x / y
  else if xi % yi ≠ 0 && (xi < 0) ≠ (yi < 0) then (Config.divCorner sg w32 a b).toNat
  else if xi = -(2 ^ (w - 1) : Int) && yi = -1 then (Config.divCorner sg w32 a b).toNat
  else patternOf w (Int.tdiv xi yi)

/-- An ALU result in `w` bits (R180). Shift counts are modulo `w`. -/
def aluResult (op : AluOp) (w32 : Bool) (a b : U64) : Nat :=
  let w := if w32 then 32 else 64
  let x := a.toNat % 2 ^ w
  let y := b.toNat % 2 ^ w
  match op with
  | .add => (x + y) % 2 ^ w
  | .sub => (x + 2 ^ w - y) % 2 ^ w
  | .mul => x * y % 2 ^ w
  | .div => divide true w32 w a b
  | .divu => divide false w32 w a b
  | .sll => x * 2 ^ (y % w) % 2 ^ w
  | .srl => x / 2 ^ (y % w)
  | .sra => patternOf w (signedOf w x / (2 ^ (y % w) : Int))
  | .and => x &&& y
  | .or => x ||| y
  | .xor => x ^^^ y
  | .seq => (Config.truthWord false (x = y)).toNat
  | .slt => (Config.truthWord false (signedOf w x < signedOf w y)).toNat
  | .sltu => (Config.truthWord false (x < y)).toNat

/-- Write an ALU result: 64 bits, or the low 32 with the upper half free (log entry 14). -/
def aluRetire (plumb : Nat) (dp : DataPlane) (c : CoreId) (w32 : Bool) (rd : Reg) (v : Nat) : DataPlane :=
  if w32 then dp.retireLow plumb c rd v else dp.retireReg plumb c rd (BitVec.ofNat 64 v)

/-- ALU, register form. -/
def execAlu (c : CoreId) (op : AluOp) (w32 : Bool) (rd rs1 rs2 : Reg) (s : State) : Out :=
  s.work (fun env dp => coreRun env dp c (isAlu rd rs1 rs2) (fun k =>
    .done (aluRetire env.plumb dp c w32 rd (aluResult op w32 (k.reg rs1) (k.reg rs2)))))

/-- ALU with a signed 16-bit immediate. -/
def execAluImmediate (c : CoreId) (op : AluOp) (w32 : Bool) (rd rs1 : Reg) (imm : U16) (s : State) : Out :=
  s.work (fun env dp => coreRun env dp c (isRegImmediate 0x02 rd rs1 imm) (fun k =>
    .done (aluRetire env.plumb dp c w32 rd (aluResult op w32 (k.reg rs1) (imm.signExtend 64)))))

/-- LUI: the immediate goes to bits [31:16], or [47:32]; the other bits keep their values (log entry 15). -/
def luiResult (high : Bool) (imm : U16) (old : U64) : U64 :=
  let lo := if high then 32 else 16
  let n := old.toNat
  BitVec.ofNat 64 (n - bits n (lo + 15) lo * 2 ^ lo + imm.toNat * 2 ^ lo)

def execLui (c : CoreId) (high : Bool) (rd : Reg) (imm : U16) (s : State) : Out :=
  s.work (fun env dp => coreRun env dp c (fun w => isImmediate 0x03 imm w && writesReg 0x03 rd w) (fun k =>
    .done (dp.retireReg env.plumb c rd (luiResult high imm (k.reg rd)))))

/-- A scalar FP32 result (R122, R124, R179). -/
def fpResult (op : FpOp) (a b d : Nat) : Nat :=
  let t := fun (r : Bool) => (Config.truthWord true r).toNat
  match op with
  | .add => fadd a b
  | .mul => fmul a b
  | .fma => ffma a b d
  | .cmpEq => t ((f32 a).eq (f32 b))
  | .cmpNe => t (!(f32 a).eq (f32 b))
  | .cmpLt => t ((f32 a).lt (f32 b))
  | .cmpLe => t ((f32 a).lt (f32 b) || (f32 a).eq (f32 b))
  | .cmpUnord => t ((f32 a).isNan || (f32 b).isNan)
  | .cvtF2I => patternOf 32 (toInt32 (f32 a))
  | .cvtI2F => toF32 (FVal.ofInt (signedOf 32 a))

/-- FP32_SCALAR: on the low 32 bits; the upper half of the destination is free (log entry 14). -/
def execFp32Scalar (c : CoreId) (op : FpOp) (rd rs1 rs2 rs3 : Reg) (s : State) : Out :=
  s.work (fun env dp => coreRun env dp c (fun w => isMajor 0x0A w && regFields rd rs1 rs2 w) (fun k =>
    let lo := fun r => (k.reg r).toNat % 2 ^ 32
    .done (dp.retireLow env.plumb c rd (fpResult op (lo rs1) (lo rs2) (lo rs3)))))

/-! ### Loads and stores -/

/-- Access widths of R180. -/
def widthOk (n : Nat) : Bool := n = 1 || n = 2 || n = 4 || n = 8

/-- LOAD. -/
def execLoad (c : CoreId) (width : Nat) (vol sgn : Bool) (rd : Reg) (addr : U64) (s : State) : Out :=
  s.work (fun env dp => coreRun env dp c (isLoad width vol sgn rd) (fun _ =>
    if widthOk width then coreLoad env dp c width vol sgn rd addr.toNat else illegal))

/-- STORE. -/
def execStore (c : CoreId) (width : Nat) (rs : Reg) (addr : U64) (s : State) : Out :=
  s.work (fun env dp => coreRun env dp c (isMajor 0x05) (fun k =>
    if widthOk width then coreStore env dp c width (k.reg rs).toNat addr.toNat else illegal))

/-! ### Control flow -/

/-- Whether a branch is taken; conditions 6 and 7 are reserved (R180). -/
def branchTaken (cond : Nat) (a b : U64) : Option Bool :=
  match cond with
  | 0 => some (a = b)
  | 1 => some (a ≠ b)
  | 2 => some (a.toInt < b.toInt)
  | 3 => some (b.toInt ≤ a.toInt)
  | 4 => some (a.toNat < b.toNat)
  | 5 => some (b.toNat ≤ a.toNat)
  | _ => none

/-- Target of a word offset from an instruction's address (log entry 16). -/
def wordTarget (pc : Nat) (off : Int) : Nat := (((pc : Int) + 4 * off) % 2 ^ 64).toNat

/-- BRANCH. -/
def execBranch (c : CoreId) (cond : BitVec 3) (rs1 rs2 : Reg) (off : BitVec 13) (s : State) : Out :=
  s.work (fun env dp => coreRun env dp c (isBranch cond rs1 rs2 off) (fun k =>
    match branchTaken cond.toNat (k.reg rs1) (k.reg rs2) with
    | none => illegal
    | some t => .done (dp.setCore c (k.retireTo env.plumb (if t then wordTarget k.pc off.toInt else k.pc + 4)))))

/-- JAL. -/
def execJal (c : CoreId) (rd : Reg) (off : BitVec 21) (s : State) : Out :=
  s.work (fun env dp => coreRun env dp c (writesReg 0x07 rd) (fun k =>
    .done (dp.setCore c ((k.setReg rd (BitVec.ofNat 64 (k.pc + 4))).retireTo env.plumb (wordTarget k.pc off.toInt)))))

/-- JALR. -/
def execJalr (c : CoreId) (rd rs1 : Reg) (s : State) : Out :=
  s.work (fun env dp => coreRun env dp c (fun w => writesReg 0x07 rd w && bits w 20 16 = rs1.val) (fun k =>
    .done (dp.setCore c ((k.setReg rd (BitVec.ofNat 64 (k.pc + 4))).retireTo env.plumb (k.reg rs1).toNat))))

/-! ### Atomics and fences -/

/-- ATOMIC_SWAP. -/
def execAtomicSwap (a : AtomicArgs) (s : State) : Out := runAtomic a 0x00 s
/-- ATOMIC_CAS. -/
def execAtomicCas (a : AtomicArgs) (s : State) : Out := runAtomic a 0x01 s
/-- ATOMIC_ADD. -/
def execAtomicAdd (a : AtomicArgs) (s : State) : Out := runAtomic a 0x02 s
/-- ATOMIC_AND. -/
def execAtomicAnd (a : AtomicArgs) (s : State) : Out := runAtomic a 0x03 s
/-- ATOMIC_OR. -/
def execAtomicOr (a : AtomicArgs) (s : State) : Out := runAtomic a 0x04 s
/-- ATOMIC_XOR. -/
def execAtomicXor (a : AtomicArgs) (s : State) : Out := runAtomic a 0x05 s
/-- ATOMIC_SMIN. -/
def execAtomicSmin (a : AtomicArgs) (s : State) : Out := runAtomic a 0x06 s
/-- ATOMIC_SMAX. -/
def execAtomicSmax (a : AtomicArgs) (s : State) : Out := runAtomic a 0x07 s
/-- ATOMIC_UMIN. -/
def execAtomicUmin (a : AtomicArgs) (s : State) : Out := runAtomic a 0x08 s
/-- ATOMIC_UMAX. -/
def execAtomicUmax (a : AtomicArgs) (s : State) : Out := runAtomic a 0x09 s
/-- ATOMIC_FADD. -/
def execAtomicFadd (a : AtomicArgs) (s : State) : Out := runAtomic a 0x0A s
/-- ATOMIC_LOAD. -/
def execAtomicLoad (a : AtomicArgs) (s : State) : Out := runAtomic a 0x0B s

/-- An acquire part: every earlier access has been performed already, so only the cache changes (R259). -/
def execFenceAcquire (c : CoreId) (sc : Scope) (s : State) : Out :=
  s.work (fun env dp => coreRun env dp c (isFence 1 sc) (fun _ =>
    .done ((dp.acquire c (scopeOf c sc)).retireOnly env.plumb c)))

/-- FENCE_RELEASE: at SYSTEM scope it does not retire while a remote write is outstanding (R259). -/
def execFenceRelease (c : CoreId) (sc : Scope) (s : State) : Out :=
  s.work (fun env dp => coreRun env dp c (isFence 2 sc) (fun _ =>
    .done (if releaseWaits dp c sc then dp else (dp.settleAtomics c (scopeOf c sc)).retireOnly env.plumb c)))

/-- FENCE_FULL. -/
def execFenceFull (c : CoreId) (sc : Scope) (s : State) : Out :=
  s.work (fun env dp => coreRun env dp c (isFence 3 sc) (fun _ =>
    .done (if releaseWaits dp c sc then dp
      else ((dp.settleAtomics c (scopeOf c sc)).acquire c (scopeOf c sc)).retireOnly env.plumb c)))

/-! ### Engine issue -/

/-- The descriptor bytes when their address is 16-byte aligned and they lie in the core's data memory or the tile's
own tile store, through its window or its alias (R185). -/
def issueBytes (cfg : FabCfg) (dp : DataPlane) (t i a n : Nat) : Option (CoreLoc × List Byte) :=
  if a % 16 ≠ 0 then none
  else match coreLocate cfg (.tile t i) a, coreLocate cfg (.tile t i) (a + n - 1) with
    | .data o, .data _ => some (.data o, readBytes ((dp.tile t).core i).mem o n)
    | .dev l, .dev e =>
      if windowOf l = .tile t && windowOf e = .tile t && e - tileBase t < tileBacked then
        some (.dev l, readBytes dp.mem.dev l n) else none
    | _, _ => none

/-- A token field of the token word (R185): its number when its enable is set. -/
def tokField (w lo en : Nat) : Option Nat := if bit w en then some (bits w (lo + 4) lo) else none

/-- Bits of a token word outside its fields are 0 (R185). -/
def tokWordOk (w : Nat) : Bool := bits w 7 6 = 0 && bits w 15 14 = 0 && bits w 63 22 = 0

/-- Put an entry into an engine's queue, or stall when the 16 places are taken (R178, R185). -/
def issuePut (plumb : Nat) (dp : DataPlane) (t i e : Nat) (q : QEntry) : DataPlane :=
  let x := dp.tile t
  let k := x.core i
  if (x.engine e).queue.length < 16 then
    let x := x.setEngine e { x.engine e with queue := (x.engine e).queue ++ [q] }
    dp.setTile t (settleTokens plumb (x.setCore i ({ k with issued := k.issued + 1 }.retire plumb)))
  else dp.setTile t (x.setCore i { k with st := .issueStall e })

/-- ISSUE on core `i` of tile `t` (R185, R186). A refusal stops the tile with DESC_INVALID. The descriptor is copied when the
ISSUE retires, so that a stalled one is read again. -/
def issueOn (env : Env) (dp : DataPlane) (t i : Nat) (k : Core) (a w op e : Nat) : CoreEnd :=
  let q : QEntry := ⟨op, [], tokField w 0 5, tokField w 8 13, tokField w 16 21, k.issued, false⟩
  let refuse := CoreEnd.done (engineFail env dp t e 0 q (EFault.plain stDescInvalid))
  match descSize i op with
  | none => refuse
  | some n =>
    match issueBytes env.cfg dp t i a n with
    | none => refuse
    | some (loc, d) =>
      let bad := match loc with
        | .dev l => poisonedAt dp.mem l n
        | _ => none
      match bad with
      | some g => .fault (EFault.poison_ g) 0
      | none => if tokWordOk w && descOk i op d then .done (issuePut env.plumb dp t i e { q with desc := d }) else refuse

/-- ISSUE. A hub core has no engine, so every operation code is refused there. -/
def execIssue (c : CoreId) (rs1 rs2 : Reg) (res : BitVec 5) (op : BitVec 8) (eng : BitVec 3) (s : State) : Out :=
  s.work (fun env dp => coreRun env dp c (isIssue rs1 rs2 res op eng) (fun k =>
    if res ≠ 0 then illegal
    else match c, issueEngine (coreStream c) eng.toNat with
      | _, none => illegal
      | .hub _, some _ => .fault (EFault.plain stDescInvalid) 0
      | .tile t i, some e =>
        issueOn env dp t i k (k.reg rs1).toNat (k.reg rs2).toNat op.toNat e))

/-- The register of a field of a word. -/
def regOf (n : Nat) : Reg := Fin.ofNat 32 n

/-- ISSUE_STALL_RESUME: a stalled ISSUE retires once an entry has freed, and copies its descriptor then (R185). -/
def execIssueStallResume (c : CoreId) (s : State) : Out :=
  s.work (fun env dp =>
    match c with
    | .hub _ => dp
    | .tile t i =>
      let k := (dp.tile t).core i
      let w := fetchWord k
      match k.st with
      | .issueStall e =>
        if coreActive dp c && ((dp.tile t).engine e).queue.length < 16 then
          match issueOn env dp t i k (k.reg (regOf (bits w 25 21))).toNat (k.reg (regOf (bits w 20 16))).toNat (bits w 10 3) e with
          | .done dp => dp
          | .fault f d => coreFault env dp c f d
        else dp
      | _ => dp)

/-! ### Tokens -/

/-- TOKWAIT (R193). A hub core has no scoreboard: its TOKEN words read 0, and it waits. -/
def execTokwait (c : CoreId) (t : Fin 32) (s : State) : Out :=
  s.work (fun env dp => coreRun env dp c (isMajor 0x11) (fun k =>
    match c with
    | .hub _ => .done (dp.setCore c { k with st := .tokWait t.val })
    | .tile n i =>
      let x := dp.tile n
      if 1 ≤ x.token t.val then
        .done (dp.setTile n ((x.setToken t.val (x.token t.val - 1)).setCore i (k.retire env.plumb)))
      else .done (dp.setCore c { k with st := .tokWait t.val })))

/-- TOKSIG (R193 to R195). A hub core has no scoreboard, and the increment reaches none. -/
def execToksig (c : CoreId) (t : Fin 32) (s : State) : Out :=
  s.work (fun env dp => coreRun env dp c (isMajor 0x11) (fun k =>
    match c with
    | .hub _ => .done (dp.retireOnly env.plumb c)
    | .tile n i =>
      let x := dp.tile n
      if 255 ≤ x.token t.val then
        .done (dp.setTile n (x.faultStop ⟨stScoreboardOverflow, i, k.issued, k.pc, 0, env.plumb⟩))
      else .done (dp.setTile n (settleTokens env.plumb
        ((x.setToken t.val (x.token t.val + 1)).setCore i (k.retire env.plumb))))))

/-! ### Events -/

/-- Address of counter `e` of the group event block of the launch on a tile (R184, R197). -/
def eventAddr (x : Tile) (e : Nat) : Option Nat := x.launch.map (fun l => l.evBlock + 4 * e)

/-- EVSIG: a DEVICE-scope release atomic without an access check. -/
def execEvsig (c : CoreId) (e : Nat) (v : U32) (s : State) : Out :=
  s.work (fun env dp => coreRun env dp c (isMajor 0x12) (fun _ =>
    if 64 ≤ e then illegal
    else match c with
      | .hub _ => .done (dp.retireOnly env.plumb c)
      | .tile t _ =>
        match eventAddr (dp.tile t) e with
        | none => .done dp
        | some a =>
          match poisonedAt dp.mem a 4 with
          | some g => .fault (EFault.poison_ g) 0
          | none => .done (((dp.settleAtomics c .device).tileWrite t a (leBytes 4 (readNat dp.mem.dev a 4 + v.toNat))).retireOnly
              env.plumb c)))

/-- Read the counter with acquire semantics: the core goes on when it has reached `v`, and waits otherwise. -/
def eventTest (env : Env) (dp : DataPlane) (t i e v : Nat) : CoreEnd :=
  match eventAddr (dp.tile t) e with
  | none => .done dp
  | some a =>
    match poisonedAt dp.mem a 4 with
    | some g => .fault (EFault.poison_ g) 0
    | none =>
      let dp := dp.acquire (.tile t i) .device
      if v ≤ readNat dp.mem.dev a 4 then .done (dp.retireOnly env.plumb (.tile t i))
      else .done (dp.setCore (.tile t i) { dp.core (.tile t i) with st := .evWait e v })

/-- EVWAIT. -/
def execEvwait (c : CoreId) (e : Nat) (v : U32) (s : State) : Out :=
  s.work (fun env dp => coreRun env dp c (isMajor 0x12) (fun _ =>
    if 64 ≤ e then illegal
    else match c with
      | .hub _ => .done dp
      | .tile t i => eventTest env dp t i e v.toNat))

/-- EVWAIT_POLL: the waiting core reads its counter again. -/
def execEvwaitPoll (c : CoreId) (s : State) : Out :=
  s.work (fun env dp =>
    match c with
    | .hub _ => dp
    | .tile t i =>
      match ((dp.tile t).core i).st with
      | .evWait e v =>
        if coreActive dp c then
          match eventTest env dp t i e v with
          | .done dp => dp
          | .fault f d => coreFault env dp c f d
        else dp
      | _ => dp)

/-! ### System instructions -/

/-- Status word `i` of R182; none where the spec fixes no value (CYCLES; tile words on a hub core). -/
def sysWord (env : Env) (dp : DataPlane) (c : CoreId) (i : Nat) : Option Nat :=
  match i, c with
  | 1, _ => some (coreStream c)
  | 7, _ => some (dp.coreCls c)
  | 8, _ => some env.plumb
  | 0, .tile t _ => some t
  | 2, .tile t _ => some (dp.width t)
  | 3, .tile t _ => (dp.tile t).launch.map (·.rank)
  | 4, .tile t _ => (dp.tile t).launch.map (·.gsize)
  | 5, .tile t _ => (dp.tile t).launch.map (fun l => l.gx + l.gy * 2 ^ 16 + l.gz * 2 ^ 32)
  | 6, .tile t _ => (dp.tile t).launch.map (·.seq)
  | j, _ => if j ≤ 9 then none else some 0

/-- RDSYS (R182). -/
def execRdsys (c : CoreId) (rd : Reg) (i : Nat) (s : State) : Out :=
  s.work (fun env dp => coreRun env dp c (writesReg 0x13 rd) (fun _ =>
    match sysWord env dp c i with
    | some v => .done (dp.retireReg env.plumb c rd (BitVec.ofNat 64 v))
    | none => .done { dp.retireReg env.plumb c rd (Config.freeWord dp.free) with free := dp.free + 1 }))

/-- Next block of a core: rank, rank + T, and so on below the grid's count (R198). -/
def nextBlock (l : TileLaunch) (taken : Nat) : Option Nat :=
  let b := l.rank + taken * l.gsize
  if b < l.gx * l.gy * l.gz then some b else none

/-- NEXTBLK (R198): −1 when no block is left. A hub core has no grid, so none is left. -/
def execNextblk (c : CoreId) (rd : Reg) (s : State) : Out :=
  s.work (fun env dp => coreRun env dp c (writesReg 0x13 rd) (fun k =>
    let b := match c with
      | .tile t _ => (dp.tile t).launch.bind (fun l => nextBlock l k.nextBlk)
      | .hub _ => none
    match b with
    | some b => .done (dp.setCore c (({ k with nextBlk := k.nextBlk + 1 }.setReg rd (BitVec.ofNat 64 b)).retire env.plumb))
    | none => .done (dp.retireReg env.plumb c rd (BitVec.ofInt 64 (-1)))))

/-- CALL: the core goes on at a firmware routine; `rd` takes the return address (log entry 16). -/
def execCall (c : CoreId) (rd : Reg) (entry : Nat) (s : State) : Out :=
  s.work (fun env dp => coreRun env dp c (writesReg 0x13 rd) (fun k =>
    .done (dp.setCore c ((k.setReg rd (BitVec.ofNat 64 (k.pc + 4))).retireTo env.plumb entry))))

/-- TRAP (R207). -/
def execTrap (c : CoreId) (code : U16) (s : State) : Out :=
  s.work (fun env dp => coreRun env dp c (isMajor 0x13) (fun _ => .fault (EFault.plain stProgramTrap) code.toNat))

/-- EXIT (R202). -/
def execExit (c : CoreId) (s : State) : Out :=
  s.work (fun env dp => coreRun env dp c (isMajor 0x13) (fun k => .done (dp.setCore c { k with st := .exited })))

/-! ### Watchdog and ECC -/

/-- A core that another core's fault has stopped in this cycle (R207). -/
def stoppedNow (env : Env) (dp : DataPlane) : CoreId → Bool
  | .tile t i => i < 8 && ((dp.tile t).core i).st = .faulted && !(dp.tile t).reported && (match (dp.tile t).fault with
      | some f => f.plumb = env.plumb && f.stream ≠ i
      | none => false)
  | .hub _ => false

/-- A fault that comes from outside a core's instructions: on a core that runs, or on one that another core's fault has
stopped in the same cycle (R207). -/
def coreEvent (env : Env) (dp : DataPlane) (c : CoreId) (status : Nat) : DataPlane :=
  match c with
  | .hub _ => if coreActive dp c && (dp.core c).st.live then coreFault env dp c (EFault.plain status) 0 else dp
  | .tile t i =>
    if coreActive dp c && (dp.core c).st.live then coreFault env dp c (EFault.plain status) 0
    else if stoppedNow env dp c then coreFaultToo env dp t i (EFault.plain status) else dp

/-- CORE_WATCHDOG: the limit has passed since the watchdog last restarted (R206, R207). A running engine of the tile may have
restarted it at a preemption point: then every core's has restarted at that free moment. -/
def execCoreWatchdog (c : CoreId) (s : State) : Out :=
  s.work (fun env dp =>
    let spent := wdogSpent env.plumb dp c
    if wdogLimit dp c * 1000000 ≤ spent then coreEvent env dp c stCoreWatchdog
    else match c with
      | .tile t _ =>
        if engineRuns dp c && dp.enabled t then
          { dp.setTile t ((dp.tile t).kickDogs (env.plumb - spent)) with free := dp.free + 1 }
        else dp
      | .hub _ => dp)

/-- CORE_ECC: an uncorrectable error in a core memory faults the work that the core runs (R26, R207). -/
def execCoreEcc (c : CoreId) (s : State) : Out := s.work (fun env dp => coreEvent env dp c stCoreEcc)

end Sys2Proof.Machine
end

