-- ==== Sys2Proof/Machine/Matrix.lean ====
section
/-! DEFINITION. The matrix unit: the dot product bit for bit (R75 to R79), MATMUL with its checks (R74), masking
(R83 to R87), KV references (R172), and the choice of Patch test blocks (R112, R115). -/

namespace Sys2Proof.Machine

/-! ### The dot product -/

/-- Truncate a product to a multiple of `2^(e - 48)` (R75). -/
def alignTo (e : Int) : FVal → FVal
  | .fin s n d =>
    let x := (FVal.fin s n d).scale2 (48 - e)
    match x with
    | .fin s n d => (FVal.fin s (n / d) 1).scale2 (e - 48)
    | v => v
  | v => v

/-- Exponent of the largest non-zero product, if any. -/
def topExp : List FVal → Option Int
  | [] => none
  | .fin _ n d :: r =>
    if n = 0 then topExp r
    else match topExp r with
      | none => some (floorLog2 n d)
      | some e => some (if floorLog2 n d < e then e else floorLog2 n d)
  | _ :: r => topExp r

/-- Exact sum of a list of values. -/
def exactSum : List FVal → FVal
  | [] => .fin false 0 1
  | [x] => x
  | x :: r => x.add (exactSum r)

/-- One rounding to FP32 in which an exact zero is +0 (R75, R77). -/
def roundGroup (v : FVal) : Nat := if v.isZero then 0 else toF32 v

/-- The value of one group (R75), as FP32 bits. -/
def groupValue (wide : Bool) (a b : List FVal) (sa sb : FVal) : Nat :=
  if a.any FVal.isNan || b.any FVal.isNan || sa.isNan || sb.isNan then f32Nan
  else
    let prods := List.zipWith FVal.mul a b
    if prods.any FVal.isNan then f32Nan
    else
      let infs := prods.filter FVal.isInf
      match infs with
      | i :: r =>
        if r.any (fun x => x.isNeg ≠ i.isNeg) then f32Nan
        else if sa.isZero || sb.isZero then f32Nan
        else toF32 i
      | [] =>
        if wide then
          match topExp prods with
          | none => 0
          | some e => roundGroup (exactSum (prods.map (alignTo e)))
        else roundGroup (((exactSum prods).mul sa).mul sb)

/-- Output element of R78: groups in ascending K order, then the factor `f` (R65). Positions at or beyond K add
nothing (R77). -/
def outputElement (wide : Bool) (k : Nat) (av bv sa sb : Nat → FVal) (c f : Nat) : Nat :=
  let g := if wide then 4 else 16
  fmul ((List.range (ceilDiv k g)).foldl (fun acc j =>
    let idx := (List.range g).filterMap (fun i => if j * g + i < k then some (j * g + i) else none)
    fadd acc (groupValue wide (idx.map av) (idx.map bv) (sa (j * g)) (sb (j * g)))) c) f

/-! ### Operands -/

/-- An operand of the matrix unit: its format word, the base and index of element `k` of K-vector `o`, the address of
the scale that covers it, and the byte ranges of the elements `[lo, hi)` of a K-vector and of their scales. -/
structure MatOp where
  w : Nat
  elem : Nat → Nat → Nat × Nat
  scale : Nat → Nat → Nat
  part : Nat → Nat → Nat → List (Nat × Nat)
  partScales : Nat → Nat → Nat → List (Nat × Nat)
  k : Nat

/-- The ranges of a whole K-vector, and of its scales. -/
def MatOp.ranges (op : MatOp) (o : Nat) : List (Nat × Nat) := op.part o 0 op.k
def MatOp.scales (op : MatOp) (o : Nat) : List (Nat × Nat) := op.partScales o 0 op.k

/-- First byte of a K-vector that holds a part of element `i` (R52, R53). -/
def vecFirst (fmt i : Nat) : Nat :=
  match fmt with
  | 0 => 4 * i
  | 1 => 2 * i
  | 2 => 2 * i
  | 3 => i
  | 4 => i
  | 5 => i
  | 6 => i / 2
  | 7 => i / 2
  | 8 => i / 5
  | 9 => i / 4
  | _ => 4 * i

/-- The bytes of elements `[lo, hi)` of a K-vector at `a`. -/
def vecPart (fmt a lo hi : Nat) : Nat × Nat := (a + vecFirst fmt lo, vecBytes fmt hi - vecFirst fmt lo)

/-- The scale entries of elements `[lo, hi)` whose entries start at `a`. -/
def scalePart (w a lo hi : Nat) : Nat × Nat := (a + lo / kSpan w, ceilDiv hi (kSpan w) - lo / kSpan w)

/-- An operand named by an address slot and its scale slot. -/
def addrOp (s sc : Slot) (k : Nat) : MatOp :=
  { w := s.fmtw
    elem := fun o i => (s.addr + o * s.pitch, i)
    scale := fun o i => sc.addr + o / oSpan s.fmtw * sc.pitch + i / kSpan s.fmtw
    part := fun o lo hi => [vecPart (fFmt s.fmtw) (s.addr + o * s.pitch) lo hi]
    partScales := fun o lo hi =>
      if fSform s.fmtw = 0 then [] else [scalePart s.fmtw (sc.addr + o / oSpan s.fmtw * sc.pitch) lo hi]
    k := k }

/-- Page address of the block that holds a slot, as the tile's translator has it. -/
def kvPage (dp : DataPlane) (t : Nat) (r : Region) (layer slot : Nat) : Nat :=
  r.pool.pageAddr (ptePage (tlbGet dp t (r.pteAddr layer (slot / 128))))

/-- A KV reference as the B operand (R155, R172). -/
def kvOp (dp : DataPlane) (t : Nat) (r : Region) (s : Slot) (k : Nat) : MatOp :=
  if s.part = 0 then
    { w := r.fd.kWord
      elem := fun o i => (kvPage dp t r s.layer (s.t0 + o) + r.fd.kOff s.head ((s.t0 + o) % 128), i)
      scale := fun o i => kvPage dp t r s.layer (s.t0 + o) + r.fd.ksOff s.head ((s.t0 + o) % 128) + i / 128
      part := fun o lo hi =>
        [vecPart (fFmt r.fd.kWord) (kvPage dp t r s.layer (s.t0 + o) + r.fd.kOff s.head ((s.t0 + o) % 128)) lo hi]
      partScales := fun o lo hi =>
        if fSform r.fd.kWord = 0 then []
        else [scalePart r.fd.kWord (kvPage dp t r s.layer (s.t0 + o) + r.fd.ksOff s.head ((s.t0 + o) % 128)) lo hi]
      k := k }
  else
    { w := r.fd.vWord
      elem := fun o i => (kvPage dp t r s.layer (s.t0 + i) + r.fd.vOff s.head o, i % 128)
      scale := fun _ _ => 0
      part := fun o lo hi => (List.range (ceilDiv hi 128 - lo / 128)).map (fun j =>
        let b := lo / 128 + j
        vecPart (fFmt r.fd.vWord) (kvPage dp t r s.layer (s.t0 + 128 * b) + r.fd.vOff s.head o) (max lo (128 * b) - 128 * b)
          (min hi (128 * b + 128) - 128 * b))
      partScales := fun _ _ _ => []
      k := k }

/-- Page-table entries of the blocks that a KV reference touches. -/
def kvPtes (r : Region) (s : Slot) (n k : Nat) : List (Nat × Nat) :=
  let count := if s.part = 0 then n else k
  (List.range (ceilDiv count 128)).map (fun b => (s.t0 / 128 + b, r.pteAddr s.layer (s.t0 / 128 + b)))

/-- Every block of a reference is present: within RESV and with a page (R172). -/
def kvPresent (dp : DataPlane) (t : Nat) (r : Region) (ptes : List (Nat × Nat)) : Bool :=
  ptes.all (fun p => 128 * p.1 < r.ent.resv && pteV (tlbGet dp t p.2))

/-- Element value of an operand. -/
def MatOp.val (rd : Nat → Byte) (op : MatOp) (o i : Nat) : FVal :=
  elemVal rd (fFmt op.w) (op.elem o i).1 (op.elem o i).2

/-- Scale value of an operand; 1 when it has none (R43). -/
def MatOp.scl (rd : Nat → Byte) (op : MatOp) (o i : Nat) : FVal :=
  if fSform op.w = 0 then .fin false 1 1 else scaleVal (fSform op.w) (rd (op.scale o i)).toNat

/-- Invalid ternary bytes of one K-vector, each counted once for each instruction (R57; log entry 63). -/
def MatOp.badBytes (rd : Nat → Byte) (op : MatOp) (o : Nat) : Nat :=
  if fFmt op.w = 8 then
    ((op.ranges o).map (fun r => ((List.range r.2).filter (fun i => 242 < (rd (r.1 + i)).toNat)).length)).sum
  else 0

/-! ### MATMUL -/

/-- The descriptor of R189. -/
structure MatDesc where
  m : Nat
  n : Nat
  k : Nat
  rows : Nat
  stencil : Bool
  zfill : Bool
  csrc : Nat
  f : Nat
  a : Slot
  b : Slot
  sa : Slot
  sb : Slot
  c : Nat
  cpitch : Nat
  dpitch : Nat
  d : Nat
  table : Nat
  rb : Nat
  sha : Slot
  shb : Slot
deriving DecidableEq, Repr

def matDesc (d : List Byte) : MatDesc :=
  { m := fld d 0 2, n := fld d 2 2, k := fld d 4 2, rows := fld d 6 2,
    stencil := bit (fld d 8 2) 0, zfill := bit (fld d 8 2) 1, csrc := bits (fld d 8 2) 3 2, f := fld d 0xC 4,
    a := slotAt d 0x10, b := slotAt d 0x20, sa := slotAt d 0x30, sb := slotAt d 0x40,
    c := fld d 0x50 8, cpitch := fld d 0x58 4, dpitch := fld d 0x5C 4, d := fld d 0x60 8,
    table := fld d 0x68 8, rb := fld d 0x70 4, sha := slotAt d 0x80, shb := slotAt d 0x90 }

/-- A shadow is present when its slot names an address other than 0 (R189). -/
def Slot.isShadow (s : Slot) : Bool := s.kind = 1 && s.addr ≠ 0

def MatDesc.cBytes (x : MatDesc) : Nat := if x.csrc = 2 then 2 else 4

/-- The byte set of C, empty for NONE. -/
def MatDesc.cRanges (x : MatDesc) : List (Nat × Nat) :=
  if x.csrc = 0 then [] else rowRanges x.c x.cpitch x.m (x.cBytes * x.n)

def MatDesc.dRanges (x : MatDesc) : List (Nat × Nat) := rowRanges x.d x.dpitch x.m (4 * x.n)

/-- C and D are the same range with the same pitch and element size (R73, R500). -/
def MatDesc.inPlace (x : MatDesc) : Bool := x.csrc = 1 && x.c = x.d && x.cpitch = x.dpitch

/-- The C element as FP32 bits, BF16 widened exactly (R72, R78). -/
def MatDesc.cVal (x : MatDesc) (rd : Nat → Byte) (r n : Nat) : Nat :=
  if x.csrc = 1 then rdNat rd (x.c + r * x.cpitch + 4 * n) 4
  else if x.csrc = 2 then toF32 (decodeF layBF16 (rdNat rd (x.c + r * x.cpitch + 2 * n) 2))
  else 0

/-- The region of a KV reference in the B slot (R74 check 0); none for an address slot. -/
def matRegion (dp : DataPlane) (t : Nat) (x : MatDesc) : Except EFault (Option Region) :=
  if x.b.kind = 2 then do
    let r ← readRegion dp (dp.cls t) (some t) x.b.region
    if x.b.layer < r.fd.layers && x.b.head < r.fd.h then pure (some r) else kvInvalid
  else pure none

/-- Shapes and pitches of check 3 of R74. -/
def matShapeOk (x : MatDesc) (wb : Nat) (kv : Option Region) : Bool :=
  let wa := x.a.fmtw
  1 ≤ x.m && x.m ≤ 2048 && 1 ≤ x.n && x.n ≤ 1024 && 1 ≤ x.k && x.k ≤ 8192 && (x.stencil || x.rows ≤ x.m) &&
  x.a.pitch % 16 = 0 && vecBytes (fFmt wa) x.k ≤ x.a.pitch && x.dpitch % 16 = 0 && 4 * x.n ≤ x.dpitch &&
  (x.csrc = 0 || (x.cpitch % 16 = 0 && x.cBytes * x.n ≤ x.cpitch)) &&
  (fSform wa = 0 || (x.sa.addr % 16 = 0 && x.sa.pitch % 16 = 0 && kBlocks wa x.k ≤ x.sa.pitch)) &&
  (match kv with
   | none =>
     x.b.pitch % 16 = 0 && vecBytes (fFmt wb) x.k ≤ x.b.pitch &&
     (fSform wb = 0 || (x.sb.addr % 16 = 0 && x.sb.pitch % 16 = 0 && kBlocks wb x.k ≤ x.sb.pitch))
   | some r => if x.b.part = 0 then x.k = r.fd.dh else x.n = r.fd.dh && x.k ≤ 1024) &&
  (!x.sha.isShadow || (x.sha.pitch % 16 = 0 && 2 * x.k ≤ x.sha.pitch)) &&
  (!x.shb.isShadow || (x.shb.pitch % 16 = 0 && 2 * x.k ≤ x.shb.pitch))

/-- The bytes that A, B and their scales can read (R500); a KV reference reads its pages. -/
def matSources (dp : DataPlane) (t : Nat) (x : MatDesc) (kv : Option Region) : List (Nat × Nat) :=
  rowRanges x.a.addr x.a.pitch x.m (vecBytes (fFmt x.a.fmtw) x.k) ++
  scaleRanges x.sa.addr x.sa.pitch x.a.fmtw x.m x.k ++
  (match kv with
   | none =>
     rowRanges x.b.addr x.b.pitch x.n (vecBytes (fFmt x.b.fmtw) x.k) ++
     scaleRanges x.sb.addr x.sb.pitch x.b.fmtw x.n x.k
   | some r =>
     (kvPtes r x.b x.n x.k).filterMap (fun p =>
       if pteV (tlbGet dp t p.2) then some (r.pool.pageAddr (ptePage (tlbGet dp t p.2)), r.pool.pageSize) else none))

/-- The checks of R74, in order; answers B's region and the valid rows. -/
def matChecks (dp : DataPlane) (t : Nat) (x : MatDesc) : EngineM (Option Region × List Nat) := do
  let kv ← atIssue (matRegion dp t x)
  let wb := match kv with
    | none => x.b.fmtw
    | some r => if x.b.part = 0 then r.fd.kWord else r.fd.vWord
  require stDescInvalid (kv.isNone || fSform wb = 0 || x.sb.kind = 0)
  require stFormatInvalid (fmtWordOk x.a.fmtw && fmtWordOk wb && computeFmt x.a.fmtw ≤ 5 && computeFmt wb ≤ 5 &&
    (!x.sha.isShadow || (fmtWordOk x.sha.fmtw && fFmt x.sha.fmtw = 1)) &&
    (!x.shb.isShadow || (fmtWordOk x.shb.fmtw && fFmt x.shb.fmtw = 1)))
  require stFormatMismatch (computeFmt x.a.fmtw = computeFmt wb)
  require stShapeInvalid (matShapeOk x wb kv)
  require stOperandOverlap
    (!meets x.dRanges (matSources dp t x kv) && (x.inPlace || !meets x.dRanges x.cRanges))
  atIssue (ownStoreCheck t .read x.cRanges)
  atIssue (ownStoreCheck t .write x.dRanges)
  let rows ← atIssue (validRows dp (dp.cls t) (some t) x.stencil x.rows x.table x.rb x.m)
  pure (kv, rows)

/-- The rows of D that an instruction writes: its valid rows, or every row under ZFILL (R84, R87). -/
def MatDesc.written (x : MatDesc) (rows : List Nat) : List (Nat × Nat) :=
  (if x.zfill then List.range x.m else rows).map (fun r => (x.d + r * x.dpitch, 4 * x.n))

/-- One output element (R78). -/
def matOut (x : MatDesc) (rd : Nat → Byte) (a b : MatOp) (r n : Nat) : Nat :=
  outputElement (4 ≤ computeFmt a.w) x.k (a.val rd r) (b.val rd n) (a.scl rd r) (b.scl rd n) (x.cVal rd r n) x.f

/-- One D row: the outputs of a valid row, +0 in a masked row (R78, R84). -/
def matRow (x : MatDesc) (rd : Nat → Byte) (a b : MatOp) (valid : Bool) (r : Nat) : List Byte :=
  if valid then (List.range x.n).flatMap (fun n => leBytes 4 (matOut x rd a b r n)) else List.replicate (4 * x.n) 0

/-- All writes to D, row by row. -/
def matWrites (x : MatDesc) (rd : Nat → Byte) (a b : MatOp) (rows : List Nat) : List (Nat × List Byte) :=
  (if x.zfill then List.range x.m else rows).map (fun r =>
    (x.d + r * x.dpitch, matRow x rd a b (rows.contains r) r))

/-! ### Patch test sampling -/

/-- A partition's effective sampling exponent (R118). -/
def patchR (env : Env) (p : Patch) : Nat :=
  let r := min (bits p.ctl.toNat 7 4) 6 + 6
  max env.rmin (min env.rmax r)

/-- Blocks audited per instruction (R118). -/
def patchMax (p : Patch) : Nat := max 1 (min 16 (bits p.ctl.toNat 13 8))

/-- The eligible blocks that the draw selects, row-major (R112). -/
def patchSelected (env : Env) (p : Patch) (launch index : Nat) (x : MatDesc) (rows : List Nat) : List (Nat × Nat) :=
  ((List.range (ceilDiv x.m 16)).flatMap (fun i => (List.range (ceilDiv x.n 16)).map (fun j => (i, j)))).filter
    (fun b => rows.any (fun r => r / 16 = b.1) &&
      philox0 (p.seedLo.toNat, p.seedHi.toNat) (launch, index, b.1, b.2) % 2 ^ patchR env p = 0)

/-- Choose the blocks to audit and count the rest (R112, R115): when more than MAXBLK are selected, the first of them in
row-major order, which R115 leaves open (log entry 61). `out` is the unit's output element. -/
def patchChoose (env : Env) (dp : DataPlane) (t : Nat) (q : QEntry) (x : MatDesc) (rd : Nat → Byte)
    (rows : List Nat) (out : Nat → Nat → Nat) : DataPlane :=
  let p := (dp.part (dp.cls t)).patch
  if !bit p.ctl.toNat 0 || 4 ≤ computeFmt x.a.fmtw then dp
  else
    let tl := dp.tile t
    let sel := patchSelected env p tl.launchIds.1 q.index x rows
    let take := sel.take (patchMax p)
    let blocks := take.map (fun b =>
      let rs := rows.filter (fun r => r / 16 = b.1)
      let cols := (List.range 16).filterMap (fun c => if 16 * b.2 + c < x.n then some (16 * b.2 + c) else none)
      ({ i := b.1, j := b.2, index := q.index, desc := q.desc, thresh := p.thresh.toNat, rows := rs,
         c := rs.flatMap (fun r => cols.map (fun n => x.cVal rd r n))
         d := rs.flatMap (fun r => cols.map (fun n => out r n)) } : PatchBlock))
    let dp := dp.setTile t { tl with patchBlocks := blocks }
    dp.setPart (dp.cls t) { dp.part (dp.cls t) with
      patch := { p with skipped := satAdd 32 p.skipped (sel.length - take.length) } }

/-- Multiply-accumulates of an instruction, in the usage counter of its format (R93, R311). -/
def countMacs (c n : Nat) (u : Usage) : Usage :=
  if c ≤ 1 then { u with mac4 := u.mac4 + n } else if c ≤ 3 then { u with mac8 := u.mac8 + n }
  else { u with mac16 := u.mac16 + n }

/-- K-elements of a pass (R69). -/
def passK (c : Nat) : Nat := if c ≤ 1 then 512 else if c ≤ 3 then 256 else 128

/-- One pass: an N-slice and a K-slice (R70). -/
structure Pass where
  n0 : Nat
  n1 : Nat
  k0 : Nat
  k1 : Nat

/-- The passes of an instruction on a tile of width `w`, in order (R89): N-slices ascending, and in each its K-passes
ascending. M is not folded. -/
def passes (w kp n k : Nat) : List Pass :=
  (List.range (ceilDiv n w)).flatMap (fun s => (List.range (ceilDiv k kp)).map (fun t =>
    ⟨s * w, min n (s * w + w), t * kp, min k (t * kp + kp)⟩))

/-- What a pass reads (R70, R72, R90): the weights of its slice with their scales; then, row by row, A with its scales, and
C in the first K-pass of an N-slice. Which failing read of several decides the status follows this order (log entry 62). -/
def passReads (x : MatDesc) (a b : MatOp) (rows : List Nat) (p : Pass) : List (Nat × Nat) :=
  (List.range (p.n1 - p.n0)).flatMap (fun j => b.part (p.n0 + j) p.k0 p.k1 ++ b.partScales (p.n0 + j) p.k0 p.k1) ++
  rows.flatMap (fun r =>
    a.part r p.k0 p.k1 ++ a.partScales r p.k0 p.k1 ++
    (if p.k0 = 0 && x.csrc ≠ 0 then [(x.c + r * x.cpitch + x.cBytes * p.n0, x.cBytes * (p.n1 - p.n0))] else []))

/-- MATMUL (R71 to R93): D = f × (C + A·B) over the valid rows. Until the instruction completes, a reader of D sees
undefined data (R90). A bad ternary byte is counted once for each K-vector of an instruction that holds it (R57; log
entry 63). -/
def matmul (env : Env) (t : Nat) (dp : DataPlane) (q : QEntry) : EngineM EngineEffect := do
  let x := matDesc q.desc
  let (kv, rows) ← matChecks dp t x
  let wr := x.written rows
  if rows.isEmpty then
    pure { dp := dp, undef := wr, writes := [deviceWrites (wr.map (fun r => (r.1, List.replicate r.2 0)))], hidden := true }
  else do
    let ptes := match kv with
      | none => []
      | some r => kvPtes r x.b x.n x.k
    atUnit 6 (match kv with
      | none => .ok ()
      | some r => checkPtes dp (dp.cls t) t ((ptes.filter (fun p => 128 * p.1 < r.ent.resv)).map (·.2)))
    require stKvNotReserved (match kv with
      | none => true
      | some r => kvPresent dp t r ptes)
    let a := addrOp x.a x.sa x.k
    let b := match kv with
      | none => addrOp x.b x.sb x.k
      | some r => kvOp dp t r x.b x.k
    let reads := (passes (dp.width t) (passK (computeFmt a.w)) x.n x.k).flatMap (passReads x a b rows)
    whileRunning wr (checkReads dp (dp.cls t) t reads)
    let rd := cachedByte dp (dp.tile t)
    let bad := (rows.map (a.badBytes rd)).sum + ((List.range x.n).map (b.badBytes rd)).sum
    let dp := tlbTouch (patchChoose env dp t q x rd rows (matOut x rd a b)) t (ptes.map (·.2))
    let dp := dp.touch t reads
    let dp := dp.setTile t { dp.tile t with packBad := (dp.tile t).packBad + bad }
    let dp := dp.addUsage (dp.cls t) (countMacs (computeFmt a.w) (rows.length * x.n * x.k))
    pure { dp := dp, undef := wr, writes := [deviceWrites (matWrites x rd a b rows)], hidden := true }

/-- MATMUL: the matrix unit takes the granted head of its queue. -/
def execMatmul (t : Nat) (s : State) : Out :=
  s.work (fun env dp => runEngine env dp t 1 1 (fun q => q.op = 1) (matmul env t))

end Sys2Proof.Machine
end

