-- ==== Sys2Proof/Machine/Skim.lean ====
section
/-! DEFINITION. The Skim unit: conversion block by block (R94 to R102), statistics (R103 to R106), scale records
(R107), ADAPT (R108 to R111), and KV_PUT (R171). -/

namespace Sys2Proof.Machine

/-! ### Rounding and scales -/

/-- Layout of a floating-point destination; E4M3 for the codes that have none. -/
def dstLayout : Nat → FLayout
  | 1 => layBF16
  | 2 => layFP16
  | 4 => layE5M2
  | 6 => layE2M1
  | _ => layE4M3

/-- Largest magnitude Qe (R97). -/
def qMax : Nat → Nat
  | 3 => 448
  | 4 => 57344
  | 5 => 127
  | 6 => 6
  | 7 => 7
  | _ => 0

/-- Top exponent Ee (R97). -/
def eTop : Nat → Int
  | 3 => 8
  | 4 => 15
  | 5 => 6
  | 6 => 2
  | 7 => 2
  | _ => 0

/-- Bits of a destination element. -/
def dstBits : Nat → Nat
  | 1 => 16
  | 2 => 16
  | 6 => 4
  | 7 => 4
  | _ => 8

/-- The format is an integer one. -/
def dstInt (f : Nat) : Bool := f = 5 || f = 7

/-- A magnitude above `Qe`. -/
def exceeds (f n d : Nat) : Bool := qMax f * d < n

/-- Quantise an exact quotient to a code (R98, R99): saturation, then one rounding, ties to even. -/
def quantise (f : Nat) (v : FVal) : Nat :=
  match v with
  | .nan => if dstInt f || f = 6 then 0 else (dstLayout f).nanCode
  | .inf s =>
    if dstInt f then patternOf (dstBits f) (if s then -(qMax f : Int) else qMax f)
    else b2n s * (dstLayout f).signBit + (dstLayout f).maxCode
  | .fin s n d =>
    if dstInt f then patternOf (dstBits f) (if exceeds f n d then sgn s (qMax f) else sgn s (rne n d))
    else b2n s * (dstLayout f).signBit + (if exceeds f n d then (dstLayout f).maxCode else roundMag (dstLayout f) n d)

/-- Magnitude of a finite value as a ratio; 0 for the others. -/
def FVal.ratio : FVal → Nat × Nat
  | .fin _ n d => (n, d)
  | _ => (0, 1)

/-- A ratio is below or equal to another. -/
def ratioLe (a b : Nat × Nat) : Bool := a.1 * b.2 ≤ b.1 * a.2

/-- Greatest magnitude of the finite values. -/
def amaxOf (ys : List FVal) : Nat × Nat :=
  ys.foldl (fun m y => if y.isFin && ratioLe m y.ratio then y.ratio else m) (0, 1)

/-- The smallest code of a layout at or above a ratio. -/
def ceilCode (l : FLayout) (x : Nat × Nat) : Nat :=
  let c := roundMag l x.1 x.2
  if ratioLe x (decodeF l c).ratio || l.maxCode < c then c else c + 1

/-- Smallest E4M3-scale at or above a ratio, held within 2^-9 and 448 (R98). -/
def e4m3sCeil (x : Nat × Nat) : Nat := max 1 (min 0x7E (ceilCode layE4M3 x))

/-- The E8M0 byte of 2^e, with e held within −127 and 127. -/
def e8m0Byte (e : Int) : Nat := (clampI (-127) 127 e + 127).toNat

/-- The scale byte that JIT chooses from a block's maximum (R98). `form` is 1 E8M0 or 2 E4M3-scale. -/
def jitScale (f form policy : Nat) (amax : Nat × Nat) : Nat :=
  if amax.1 = 0 then (if form = 1 then 0x7F else 0x38)
  else if form = 2 then e4m3sCeil (amax.1, amax.2 * qMax f)
  else if policy = 0 then e8m0Byte (floorLog2 amax.1 amax.2 - eTop f)
  else e8m0Byte (ceilLog2 amax.1 (amax.2 * qMax f))

def nanScale (form : Nat) : Nat := if form = 1 then 0xFF else 0x7F

/-! ### Scale records -/

/-- Fields of CONFIG and STATE (R107). -/
def recCform (b : List Byte) : Nat := bits (fld b 0 4) 15 14
def recCarried (b : List Byte) : Nat := bits (fld b 4 4) 27 20
def recHwin (b : List Byte) : Nat := bits (fld b 0 4) 3 0 + 1
def recMargin (b : List Byte) : Int := bits (fld b 0 4) 5 4
def recNudgeEn (b : List Byte) : Bool := bit (fld b 0 4) 6
def recFreeze (b : List Byte) : Bool := bit (fld b 0 4) 7
def recGain (b : List Byte) : Nat := bits (fld b 0 4) 9 8
def recSatsh (b : List Byte) : Nat := bits (fld b 0 4) 13 10
def recHpos (b : List Byte) : Nat := bits (fld b 4 4) 3 0
def recHfill (b : List Byte) : Nat := bits (fld b 4 4) 8 4
def recNudge (b : List Byte) : Int := signedOf 3 (bits (fld b 4 4) 11 9)
def recHist (b : List Byte) (i : Nat) : Nat := fld b (0x40 + 4 * i) 4

/-- A valid CONFIG and STATE (R107): no reserved value, CFORM 1 or 2, HFILL at most 16, NUDGE not −4. -/
def recordOk (b : List Byte) : Bool :=
  bits (fld b 0 4) 31 16 = 0 && (recCform b = 1 || recCform b = 2) && bits (fld b 4 4) 19 12 = 0 &&
  bits (fld b 4 4) 31 28 = 0 && recHfill b ≤ 16 && recNudge b ≠ -4

/-- The value of the carried scale byte. -/
def carriedVal (b : List Byte) : FVal := scaleVal (recCform b) (recCarried b)

/-- The carried byte is neither zero nor a NaN of its form (R95). -/
def carriedOk (b : List Byte) : Bool := !(carriedVal b).isZero && !(carriedVal b).isNan

/-! ### Statistics -/

/-- Cut the square of an exact error to a multiple of 2^-24, capped at 2^16 (R104). -/
def errTerm (v : FVal) : Nat :=
  match v with
  | .fin _ n d => min (n * n * 2 ^ 24 / (d * d)) (2 ^ 40)
  | _ => 0

/-- The three error terms of a finite element at scale `s` (R104). -/
def errTerms (f : Nat) (y s : FVal) : Nat × Nat × Nat :=
  let at_ := fun t => (y.div t).sub (codeVal f (quantise f (y.div t)))
  (errTerm (at_ s), errTerm ((at_ (s.scale2 1)).scale2 1), errTerm ((at_ (s.scale2 (-1))).scale2 (-1)))

/-- FP32 bits of a magnitude, rounded toward +infinity (R103). -/
def ceilF32 (x : Nat × Nat) : Nat := min (ceilCode layFP32 x) f32PosInf

/-- Add one element's quotient to a slot. `sat` tells whether a finite element saturated; error terms when the
destination has a grid of its own (R102, R103). -/
def SkimSlot.add (s : SkimSlot) (y : FVal) (sat : Bool) (es : Nat × Nat × Nat) : SkimSlot :=
  match y with
  | .nan => { s with nan := satAdd 32 s.nan 1 }
  | .inf _ => { s with inf := satAdd 32 s.inf 1 }
  | .fin _ n d =>
    { s with
      count := satAdd 48 s.count 1
      sat := satAdd 32 s.sat (b2n sat)
      amax := max s.amax (ceilF32 (n, d))
      err0 := satAdd 64 s.err0 es.1
      errUp := satAdd 64 s.errUp es.2.1
      errDn := satAdd 64 s.errDn es.2.2 }

/-- Combine a slot into the current-step fields of a record (R105): 48 bytes from offset 0x08. -/
def flushInto (b : List Byte) (s : SkimSlot) : List Byte :=
  leBytes 8 (satAdd 48 (fld b 0 8 % 2 ^ 48) s.count) ++ leBytes 4 (satAdd 32 (fld b 8 4) s.sat) ++
  leBytes 4 (satAdd 32 (fld b 12 4) s.nan) ++ leBytes 4 (satAdd 32 (fld b 16 4) s.inf) ++
  leBytes 4 (max (fld b 20 4) s.amax) ++ leBytes 8 (satAdd 64 (fld b 24 8) s.err0) ++
  leBytes 8 (satAdd 64 (fld b 32 8) s.errUp) ++ leBytes 8 (satAdd 64 (fld b 40 8) s.errDn)

/-- A slot's own fields in the record's layout. -/
def SkimSlot.bytes (s : SkimSlot) : List Byte := flushInto [] s

/-! ### CONVERT -/

/-- The descriptor of R190. -/
structure ConvDesc where
  rows : Nat
  len : Nat
  mode : Nat
  policy : Nat
  slot : Nat
  record : Nat
  src : Slot
  dst : Slot
  ds : Slot
deriving DecidableEq, Repr

def convDesc (d : List Byte) : ConvDesc :=
  ⟨fld d 0 2, fld d 2 2, fld d 4 1, fld d 5 1, fld d 6 1, fld d 8 8, slotAt d 0x10, slotAt d 0x20, slotAt d 0x30⟩

/-- Source formats of the Skim unit (R68). -/
def skimSrcOk (w : Nat) : Bool := fmtWordOk w && fFmt w ≤ 2 && fSform w = 0
/-- Destination formats of the Skim unit (R68). -/
def skimDstOk (w : Nat) : Bool := fmtWordOk w && [1, 2, 3, 4, 5, 6, 7].contains (fFmt w)

def convShapeOk (x : ConvDesc) : Bool :=
  1 ≤ x.rows && x.rows ≤ 2048 && 1 ≤ x.len && x.len ≤ 8192 &&
  x.src.pitch % 16 = 0 && vecBytes (fFmt x.src.fmtw) x.len ≤ x.src.pitch &&
  x.dst.pitch % 16 = 0 && vecBytes (fFmt x.dst.fmtw) x.len ≤ x.dst.pitch &&
  (fSform x.dst.fmtw = 0 ||
    (x.ds.addr % 16 = 0 && x.ds.pitch % 16 = 0 && kBlocks x.dst.fmtw x.len ≤ x.ds.pitch))

/-- The record agrees with the mode and destination (R95 check 3). -/
def convRecordOk (x : ConvDesc) (b : List Byte) : Bool :=
  recordOk b && carriedOk b &&
  (if x.mode = 1 then fSform x.dst.fmtw = 0 || recCform b = fSform x.dst.fmtw
   else recCform b = 1 && fSform x.dst.fmtw ≠ 0)

def ConvDesc.srcRanges (x : ConvDesc) : List (Nat × Nat) :=
  rowRanges x.src.addr x.src.pitch x.rows (vecBytes (fFmt x.src.fmtw) x.len)
def ConvDesc.dstRanges (x : ConvDesc) : List (Nat × Nat) :=
  rowRanges x.dst.addr x.dst.pitch x.rows (vecBytes (fFmt x.dst.fmtw) x.len)
def ConvDesc.dsRanges (x : ConvDesc) : List (Nat × Nat) := scaleRanges x.ds.addr x.ds.pitch x.dst.fmtw x.rows x.len

/-- One block's elements, as (row, element) pairs: those under scale (outer, k), or one row when SFORM is 0 (R97). -/
def convBlock (x : ConvDesc) (bo bk : Nat) : List (Nat × Nat) :=
  if fSform x.dst.fmtw = 0 then (List.range x.len).map (fun i => (bo, i))
  else
    let os := oSpan x.dst.fmtw
    let ks := kSpan x.dst.fmtw
    (List.range (min os (x.rows - bo * os))).flatMap (fun r =>
      (List.range (min ks (x.len - bk * ks))).map (fun i => (bo * os + r, bk * ks + i)))

/-- What a conversion fixes before it starts: the divisor `t`, and the carried scale when the mode writes it. -/
structure ConvScale where
  t : FVal
  carried : Option (Nat × FVal)

def one : FVal := .fin false 1 1

/-- Scales of a mode from its record (R98). -/
def convScale (mode : Nat) (rec : List Byte) : ConvScale :=
  if mode = 0 then ⟨one, none⟩
  else if mode = 1 then ⟨one, some (recCarried rec, carriedVal rec)⟩
  else ⟨carriedVal rec, none⟩

/-- Scale byte and value that a block uses (R98). -/
def blockScale (f form policy : Nat) (cs : ConvScale) (ys : List FVal) : Nat × FVal :=
  match cs.carried with
  | some c => c
  | none =>
    if form = 0 then (0, one)
    else
      let b := jitScale f form policy (amaxOf ys)
      (b, scaleVal form b)

/-- The scale byte written for a block: the NaN scale when it holds a NaN (R100). -/
def blockByte (form : Nat) (ys : List FVal) (b : Nat) : Nat := if ys.any FVal.isNan then nanScale form else b

/-- The code and statistics of one element: into a grid of its own, or narrowed to BF16 or FP16 (R98, R102). -/
def convElem (f : Nat) (y s : FVal) : Nat × FVal × Bool × (Nat × Nat × Nat) :=
  if f = 1 || f = 2 then
    let v := y.div s
    let c := encodeF (dstLayout f) v
    (c, v, (decodeF (dstLayout f) c).isInf, (0, 0, 0))
  else
    let v := y.div s
    let es := if y.isFin then errTerms f y s else (0, 0, 0)
    (quantise f v, y, exceeds f v.ratio.1 v.ratio.2, es)

/-- Pack codes into bytes, low positions first; a last odd nibble position is 0 (R52, R101). -/
def packCodes (w : Nat) : List Nat → List Byte
  | [] => []
  | [a] => leBytes (ceilDiv w 8) a
  | a :: b :: r => if w = 4 then BitVec.ofNat 8 (a + 16 * b) :: packCodes w r
    else leBytes (w / 8) a ++ packCodes w (b :: r)

/-- The scales of all blocks, outer-major: (byte, value, byte to write). -/
def convScales (x : ConvDesc) (src : Nat → Nat → FVal) (cs : ConvScale) : List (Nat × FVal × Nat) :=
  let f := fFmt x.dst.fmtw
  let form := fSform x.dst.fmtw
  let no := if form = 0 then x.rows else ceilDiv x.rows (oSpan x.dst.fmtw)
  let nk := if form = 0 then 1 else kBlocks x.dst.fmtw x.len
  (List.range no).flatMap (fun bo => (List.range nk).map (fun bk =>
    let ys := (convBlock x bo bk).map (fun p => (src p.1 p.2).div cs.t)
    let s := blockScale f form x.policy cs ys
    (s.1, s.2, blockByte form ys s.1)))

/-- Index in `convScales` of the block of an element. -/
def convBlockOf (x : ConvDesc) (r i : Nat) : Nat :=
  if fSform x.dst.fmtw = 0 then r
  else r / oSpan x.dst.fmtw * kBlocks x.dst.fmtw x.len + i / kSpan x.dst.fmtw

/-- A whole row's elements. -/
def convRow (x : ConvDesc) (src : Nat → Nat → FVal) (cs : ConvScale) (scales : List (Nat × FVal × Nat)) (r : Nat) :
    List (Nat × FVal × Bool × (Nat × Nat × Nat)) :=
  (List.range x.len).map (fun i =>
    convElem (fFmt x.dst.fmtw) ((src r i).div cs.t) (scales.getD (convBlockOf x r i) (0, one, 0)).2.1)

/-- Writes of a conversion: data rows, then scale rows. -/
def convWrites (x : ConvDesc) (rows : List (List (Nat × FVal × Bool × (Nat × Nat × Nat))))
    (scales : List (Nat × FVal × Nat)) : List (Nat × List Byte) :=
  let data := (List.range x.rows).map (fun r =>
    (x.dst.addr + r * x.dst.pitch, packCodes (dstBits (fFmt x.dst.fmtw)) ((rows.getD r []).map (·.1))))
  let nk := kBlocks x.dst.fmtw x.len
  let sc := if fSform x.dst.fmtw = 0 then [] else
    (List.range (ceilDiv x.rows (oSpan x.dst.fmtw))).map (fun bo =>
      (x.ds.addr + bo * x.ds.pitch, ((scales.drop (bo * nk)).take nk).map (fun s => BitVec.ofNat 8 s.2.2)))
  data ++ sc

/-- CONVERT (R94 to R102). -/
def convert (t : Nat) (dp : DataPlane) (q : QEntry) : EngineM EngineEffect := do
  let x := convDesc q.desc
  let cls := dp.cls t
  require stFormatInvalid (skimSrcOk x.src.fmtw && skimDstOk x.dst.fmtw)
  require stShapeInvalid (convShapeOk x)
  require stSkimModeInvalid (x.mode = 0 || x.record % 128 = 0)
  let rec ← if x.mode = 0 then pure [] else atIssue (checkedRead dp cls (some t) x.record 128)
  require stSkimModeInvalid (x.mode = 0 || convRecordOk x rec)
  let recR := if x.mode = 0 then [] else [(x.record, 128)]
  require stOperandOverlap (!meets x.dstRanges x.dsRanges && !meets x.dstRanges x.srcRanges &&
    !meets x.dsRanges x.srcRanges && !meets recR (x.srcRanges ++ x.dstRanges ++ x.dsRanges))
  let wr := x.dstRanges ++ x.dsRanges
  whileRunning wr (checkReads dp cls t x.srcRanges)
  whileRunning wr (checkRanges dp cls (some t) .write wr)
  let rd := cachedByte dp (dp.tile t)
  let src := fun r i => elemVal rd (fFmt x.src.fmtw) (x.src.addr + r * x.src.pitch) i
  let cs := convScale x.mode rec
  let scales := convScales x src cs
  let rows := (List.range x.rows).map (convRow x src cs scales)
  let dp := dp.touch t x.srcRanges
  let tl := dp.tile t
  let slot := rows.foldl (fun s r => r.foldl (fun s e => s.add e.2.1 e.2.2.1 e.2.2.2) s)
    (SMap.get SkimSlot.init tl.slots x.slot)
  let dp := dp.setTile t { tl with slots := SMap.set SkimSlot.init tl.slots x.slot slot }
  pure { dp := dp, undef := wr, writes := [deviceWrites (convWrites x rows scales)] }

/-! ### FLUSH and ADAPT -/

/-- FLUSH (R106, R499): one atomic on the record's current-step fields, at DEVICE scope here or at the record's home
module. -/
def flush (env : Env) (t : Nat) (dp : DataPlane) (q : QEntry) : EngineM EngineEffect := do
  let slot := fld q.desc 0 1
  let addr := fld q.desc 8 8
  let tl := dp.tile t
  let st := SMap.get SkimSlot.init tl.slots slot
  let cleared := dp.setTile t { tl with slots := SMap.set SkimSlot.init tl.slots slot SkimSlot.init }
  require stSkimModeInvalid (bits addr 47 0 % 128 = 0)
  match resolve env.cfg addr with
  | .bad => .error { fault := EFault.access_ reasonUnmapped .atomic addr }
  | .remote home a =>
    pure { dp := cleared.sendRemote home .atomic (.skim t) [a, 0x40] st.bytes, remote := 1 }
  | .dev a => do
    atIssue (checkIssued dp (dp.cls t) (some t) .atomic addr a 128)
    match poisonedAt dp.mem (a + 8) 48 with
    | some g => .error { fault := EFault.poison_ g }
    | none => pure { dp := cleared.tileWrite t (a + 8) (flushInto (readBytes dp.mem.dev (a + 8) 48) st) }

/-- The target maximum Q of ADAPT (R108). -/
def adaptQ (fmt use : Nat) : Nat := qMax fmt * (if use = 1 then 448 else 1)

/-- The new carried byte of R108, from the window maximum as FP32 bits; a maximum beyond FP32 is held at the top of
the scale's range. -/
def newScale (h q cform : Nat) (k : Int) : Nat :=
  let r := (f32 h).ratio
  if (f32 h).isInf then (if cform = 1 then 0xFE else 0x7E)
  else if r.1 = 0 then (if cform = 1 then 0x7F else 0x38)
  else if cform = 1 then e8m0Byte (ceilLog2 r.1 (r.2 * q) + k)
  else
    let c := (scaleVal 2 (e4m3sCeil (r.1, r.2 * q))).scale2 k
    e4m3sCeil c.ratio

/-- The NUDGE after the step's tests (R108): G is 2^(GAIN − 4). -/
def newNudge (b : List Byte) : Int :=
  let count := fld b 8 8 % 2 ^ 48
  let sat := fld b 0x10 4
  let lim := fld b 0x20 8 * (16 - 2 ^ recGain b)
  let n := recNudge b
  if recSatsh b ≠ 0 && count < sat * 2 ^ recSatsh b then min (n + 1) 3
  else if recNudgeEn b && fld b 0x28 8 * 16 < lim then min (n + 1) 3
  else if recNudgeEn b && fld b 0x30 8 * 16 < lim then max (n - 1) (-3)
  else n

/-- STATE as a word. -/
def recState (hpos hfill : Nat) (nudge : Int) (carried : Nat) : Nat :=
  hpos + 16 * hfill + 512 * patternOf 3 nudge + 2 ^ 20 * carried

/-- The record after a step that pushes its maximum (R108). -/
def adaptPush (q : Nat) (b : List Byte) : List Byte :=
  let restart := recHwin b < recHfill b || recHwin b ≤ recHpos b
  let hp := if restart then 0 else recHpos b
  let hf := if restart then 0 else recHfill b
  let hist := fun i => if i = hp then fld b 0x1C 4 else recHist b i
  let hp1 := (hp + 1) % recHwin b
  let hf1 := min (hf + 1) (recHwin b)
  let nudge := if recFreeze b then recNudge b else newNudge b
  let h := (List.range hf1).foldl (fun m i => max m (hist ((hp1 + recHwin b - 1 - i) % recHwin b))) 0
  let carried := if recFreeze b then recCarried b else newScale h q (recCform b) (recMargin b + nudge)
  b.take 4 ++ leBytes 4 (recState hp1 hf1 nudge carried) ++ List.replicate 48 0 ++ (b.drop 0x38).take 8 ++
  (List.range 16).flatMap (fun i => leBytes 4 (hist i))

/-- The record after ADAPT (R108, R110, R111). -/
def adaptRecord (q : Nat) (b : List Byte) : List Byte :=
  if fld b 8 8 % 2 ^ 48 = 0 && fld b 0x14 4 = 0 && fld b 0x18 4 = 0 then b
  else if fld b 0x14 4 = 0 && fld b 0x18 4 = 0 then adaptPush q b
  else b.take 8 ++ List.replicate 48 0 ++ b.drop 0x38

/-- ADAPT (R108, R109, R499): one indivisible read and write of the record at its point of coherence. Which permission it
needs is open: the model asks for R and W (log entry 66). -/
def adapt (t : Nat) (dp : DataPlane) (q : QEntry) : EngineM EngineEffect := do
  let fmt := fld q.desc 0 1
  let use := fld q.desc 1 1
  let a := fld q.desc 8 8
  require stFormatInvalid ([3, 4, 5, 6, 7].contains fmt)
  require stSkimModeInvalid (a % 128 = 0)
  let b ← atIssue (checkedRead dp (dp.cls t) (some t) a 128)
  require stSkimModeInvalid (recordOk b && (use = 0 || recCform b = 1))
  atIssue (checkAccess dp (dp.cls t) (some t) .write a 128)
  pure { dp := dp.tileWrite t a (adaptRecord (adaptQ fmt use) b) }

/-! ### KV_PUT -/

/-- One row's target: its region, slot and batch row (R171). -/
structure PutRow where
  reg : Region
  slot : Nat
  row : Nat

/-- The rows of every entry whose REGION is not 0, in order. -/
def putRows (dp : DataPlane) (p t : Nat) : List SEntry → Except EFault (List PutRow)
  | [] => .ok []
  | e :: r => do
    let rest ← putRows dp p t r
    if e.region = 0 then pure rest
    else do
      let g ← readRegion dp p (some t) e.region
      pure ((List.range e.new).map (fun i => ⟨g, e.ctx + i, e.start + i⟩) ++ rest)

/-- Page-table entry of a row's block. -/
def PutRow.pte (r : PutRow) (layer : Nat) : Nat := r.reg.pteAddr layer (r.slot / 128)

/-- The page a row writes, by the translator's entry. -/
def PutRow.page (dp : DataPlane) (t layer : Nat) (r : PutRow) : Nat :=
  r.reg.pool.pageAddr (ptePage (tlbGet dp t (r.pte layer)))

/-- One head's K: codes, and its scale bytes under KVFMT 2 (R153). -/
def putK (f : FmtDesc) (ks : Nat) (xs : List FVal) : List Byte × List Byte :=
  if f.kvfmt = 0 then (packCodes 16 (xs.map (encodeF layBF16)), [])
  else if f.kvfmt = 1 then (packCodes 8 (xs.map (fun x => quantise 3 (x.div (scaleVal 1 ks)))), [])
  else
    let blk := fun j => (xs.drop (128 * j)).take 128
    let sc := fun j => jitScale 3 1 1 (amaxOf (blk j))
    let n := ceilDiv f.dh 128
    ((List.range n).flatMap (fun j => packCodes 8 ((blk j).map (fun x => quantise 3 (x.div (scaleVal 1 (sc j)))))),
     (List.range n).map (fun j => BitVec.ofNat 8 (blockByte 1 (blk j) (sc j))))

/-- One V element (R153). -/
def putV (f : FmtDesc) (vs : Nat) (x : FVal) : List Byte :=
  if f.kvfmt = 0 then leBytes 2 (encodeF layBF16 x) else leBytes 1 (quantise 3 (x.div (scaleVal 1 vs)))

/-- The writes of one row (R155, R171). -/
def putWrites (dp : DataPlane) (t layer : Nat) (ks vs : Nat) (kx vx : Nat → FVal) (r : PutRow) :
    List (Nat × List Byte) :=
  let f := r.reg.fd
  let pg := r.page dp t layer
  (List.range f.h).flatMap (fun h =>
    let k := putK f ks ((List.range f.dh).map (fun d => kx (h * f.dh + d)))
    (pg + f.kOff h (r.slot % 128), k.1) ::
    (if f.kvfmt = 2 then [(pg + f.ksOff h (r.slot % 128), k.2)] else []) ++
    (List.range f.dh).map (fun d => (pg + f.vOff h d + r.slot % 128 * f.e, putV f vs (vx (h * f.dh + d)))))

/-- KV_PUT (R171), with its checks in order. -/
def kvPut (t : Nat) (dp : DataPlane) (q : QEntry) : EngineM EngineEffect := do
  let x := convDesc q.desc
  let p := dp.cls t
  let layer := x.slot
  let tb ← atIssue (readTable dp p (some t) x.record)
  let rows ← atIssue (putRows dp p t tb.entries)
  require stKvRegionInvalid (rows.all (fun r => layer < r.reg.fd.layers))
  require stFormatInvalid (skimSrcOk x.src.fmtw && skimSrcOk x.dst.fmtw)
  require stShapeInvalid (x.src.pitch % 16 = 0 && x.dst.pitch % 16 = 0 && rows.all (fun r =>
    vecBytes (fFmt x.src.fmtw) (r.reg.fd.h * r.reg.fd.dh) ≤ x.src.pitch &&
    vecBytes (fFmt x.dst.fmtw) (r.reg.fd.h * r.reg.fd.dh) ≤ x.dst.pitch))
  atUnit 6 (checkPtes dp p t ((rows.filter (fun r => r.slot < r.reg.ent.resv)).map (·.pte layer)))
  require stKvNotReserved (rows.all (fun r =>
    r.slot < r.reg.ent.resv && pteV (tlbGet dp t (r.pte layer)) && !pteRo (tlbGet dp t (r.pte layer))))
  let srcR := rows.flatMap (fun r =>
    [(x.src.addr + r.row * x.src.pitch, vecBytes (fFmt x.src.fmtw) (r.reg.fd.h * r.reg.fd.dh)),
     (x.dst.addr + r.row * x.dst.pitch, vecBytes (fFmt x.dst.fmtw) (r.reg.fd.h * r.reg.fd.dh))])
  require stOperandOverlap (!meets srcR (rows.map (fun r => (r.page dp t layer, r.reg.pool.pageSize))))
  let rd := cachedByte dp (dp.tile t)
  let writes := rows.flatMap (fun r =>
    putWrites dp t layer (byteAt dp.mem.dev (r.reg.fd.ksAddr layer)).toNat
      (byteAt dp.mem.dev (r.reg.fd.vsAddr layer)).toNat
      (fun i => elemVal rd (fFmt x.src.fmtw) (x.src.addr + r.row * x.src.pitch) i)
      (fun i => elemVal rd (fFmt x.dst.fmtw) (x.dst.addr + r.row * x.dst.pitch) i) r)
  let wr := writes.map (fun w => (w.1, w.2.length))
  whileRunning wr (checkReads dp p t srcR)
  whileRunning wr (checkReads dp p t (rows.flatMap (fun r =>
    if r.reg.fd.kvfmt = 0 then [] else
      (if r.reg.fd.kvfmt = 1 then [(r.reg.fd.ksAddr layer, 1)] else []) ++ [(r.reg.fd.vsAddr layer, 1)])))
  whileRunning wr (checkRanges dp p (some t) .write wr)
  let dp := (tlbTouch dp t (rows.map (·.pte layer))).touch t srcR
  pure { dp := dp, undef := wr, writes := [deviceWrites writes] }

/-! ### The commands -/

/-- CONVERT. -/
def execConvert (t : Nat) (s : State) : Out :=
  s.work (fun env dp => runEngine env dp t 2 2 (fun q => q.op = 1) (convert t))

/-- FLUSH. -/
def execFlush (t : Nat) (s : State) : Out :=
  s.work (fun env dp => runEngine env dp t 2 2 (fun q => q.op = 2) (flush env t))

/-- ADAPT. -/
def execAdapt (t : Nat) (s : State) : Out :=
  s.work (fun env dp => runEngine env dp t 2 2 (fun q => q.op = 3) (adapt t))

/-- KV_PUT. -/
def execKvPut (t : Nat) (s : State) : Out :=
  s.work (fun env dp => runEngine env dp t 2 2 (fun q => q.op = 4) (kvPut t))

end Sys2Proof.Machine
end

