-- ==== Sys2Proof/Machine/Memory.lean ====
section
/-! DEFINITION. Memory events: the access-table drain (R239), the patrol scrub (R216, R220), line fills of the tile
read cache (R224), and accesses between modules (R212, R362, R363). -/

namespace Sys2Proof.Machine

/-! ### The access-table drain -/

/-- ACT_SYNC_GO (R239): a write of GO starts a drain, or extends the one in progress. -/
def execActSyncGo (s : State) : Out := s.work (fun _ dp => { dp with mem := { dp.mem with syncBusy := true } })

/-- ACT_SYNC_DRAIN_DONE (R239). -/
def execActSyncDrainDone (s : State) : Out := s.work (fun _ dp => { dp with mem := { dp.mem with syncBusy := false } })

/-! ### Patrol scrub -/

/-- Stack, pseudo-channel and stack-local address of an HBM address (R216). -/
def hbmPlace (a carve : Nat) : Nat × Nat × Nat :=
  let cb := 2 ^ 40 - carve * 2 ^ 35
  let g := a / 4096
  let off := a % 4096
  let (s, loc) :=
    if a < cb then ((g % 16) ^^^ (g / 16 % 16), g / 16 * 4096 + off)
    else
      let half := carve * 2 ^ 34
      let d := if a < cb + half then 0 else 1
      let h := (a - cb - d * half) / 4096
      (8 * d + ((h % 8) ^^^ (h / 8 % 8)), 2 ^ 36 - carve * 2 ^ 31 + (h / 8 * 4096 + off))
  (s, (loc / 256 % 32) ^^^ (loc / 2 ^ 17 % 32), loc)

/-- Add a row to the field log's list, which holds 256 (R220, R426). -/
def addRow (flash : List Host.Cell) (r : RowLog) : List Host.Cell :=
  let l := fieldLog flash
  if l.rows.contains r || 256 ≤ l.rows.length then flash else putLog flash { l with rows := l.rows ++ [r] }

/-- The scrub of a pseudo-channel reads upwards through the stack: an address not above the last one begins a new cycle
(R220; log entry 77). -/
def ScrubCycle.advance (c : ScrubCycle) (loc : Nat) : ScrubCycle := ⟨loc, if loc ≤ c.last then [] else c.rows⟩

/-- Corrected errors of a row in this cycle. -/
def ScrubCycle.errors (c : ScrubCycle) (row : Nat × Nat) : Nat := ((c.rows.find? (fun r => r.1 = row)).map (·.2)).getD 0

/-- Count one more. -/
def ScrubCycle.add (c : ScrubCycle) (row : Nat × Nat) : ScrubCycle :=
  { c with rows := (row, c.errors row + 1) :: c.rows.filter (fun r => r.1 ≠ row) }

/-- A scrub of HBM (R220): corrected data goes back in place and is counted; the sixteenth error of a row in one cycle is
recorded; an uncorrectable granule is poisoned and logged to the owner. -/
def scrubHbm (addr : Nat) (r : ScrubResult) (s : State) : State :=
  let (st, pc, loc) := hbmPlace addr s.fb.cfg.carve
  let c := (SMap.get ScrubCycle.init s.dp.scrub (32 * st + pc)).advance loc
  let put := fun (c : ScrubCycle) (dp : DataPlane) => { dp with scrub := SMap.set ScrubCycle.init dp.scrub (32 * st + pc) c }
  match r with
  | .clean => { s with dp := put c s.dp }
  | .corrected bank row =>
    let c := c.add (bank, row)
    let s := { s with dp := put c (s.dp.count (0x1000 + 8 * (32 * st + pc)) 1) }
    if c.errors (bank, row) = 16 then
      { s with
        dp := s.dp.ownerEvent evHbmRowLogged 2 st addr s.fb.plumb.ns pc
        mg := { s.mg with flash := addRow s.mg.flash ⟨st, pc, bank, row⟩ } }
    else s
  | .uncorrectable =>
    { s with dp := ((put c (s.dp.poisonGranules [addr / 64])).count 0x160 1).ownerEvent evPatrolUe 2 st (64 * (addr / 64))
               s.fb.plumb.ns pc }

/-- PATROL_SCRUB (R219, R220): what a check of memory finds. In a tile store or shared store, which SEC-DED protects, an
uncorrectable error poisons its granule. -/
def execPatrolScrub (addr : Nat) (r : ScrubResult) (s : State) : Out :=
  s.hub (fun s =>
    match windowOf addr with
    | .hbm => scrubHbm addr r s
    | .tile _ | .shared _ =>
      if r = .uncorrectable && backed s.dp addr then { s with dp := s.dp.poisonGranules [addr / 64] } else s
    | _ => s)

/-! ### The tile read cache -/

/-- Put a line in the cache as the most recent of its set, which keeps 8 lines (R224). -/
def cachePut (cache : List CacheLine) (l : CacheLine) : List CacheLine :=
  let rest := cache.filter (fun k => k.line ≠ l.line)
  let ours := rest.filter (fun k => cacheSet k.line = cacheSet l.line)
  let kept := ours.take 7
  l :: rest.filter (fun k => cacheSet k.line ≠ cacheSet l.line || kept.any (fun y => y.line = k.line))

/-- The oldest fill in flight arrives; one that an invalidation has met is discarded (R224). -/
def fillArrives (x : Tile) : Tile :=
  match x.fills with
  | [] => x
  | f :: r => { x with fills := r, cache := if f.dropped then x.cache else cachePut x.cache ⟨f.line, f.data⟩ }

/-- CACHE_LINE_FILL (R219, R224): a fill arrives, or a line with a parity error is invalidated and fetched again. -/
def execCacheLineFill (f : LineFill) (s : State) : Out :=
  s.work (fun _ dp =>
    let x := dp.tile f.tile
    match f.parity with
    | none => dp.setTile f.tile (fillArrives x)
    | some l =>
      if (cacheFind x l).isSome then
        dp.setTile f.tile (touchLine dp.mem { x with cache := x.cache.filter (fun k => k.line ≠ l) } l)
      else dp)

/-! ### The home module's side of a remote access -/

def remoteCls : Nat := 17
def remoteMaster : Nat := 0xF00

/-- A tag at or below the highest performed, within a window of 2^31 (R362). -/
def RemoteSrc.repeated (x : RemoteSrc) (tag : Nat) : Bool := x.seen && span32 x.highest tag < 2 ^ 31

/-- Why the home module refuses: a window that it does not admit, or its access tables (R212, R238). -/
def homeRefusal (dp : DataPlane) (r : RemoteReq) : Option (Nat × Nat) :=
  match windowOf r.addr with
  | .hbm => accessCheck dp remoteCls none r.kind r.addr r.len
  | .shared _ => accessCheck dp remoteCls none r.kind r.addr r.len
  | _ => some (reasonRemote, r.addr)

/-- Perform an admitted request at its point of coherence: status, poisoned granules read, response data and the memory
after it. Each granule of a write carries its own poison tag (R221). An atomic with `aop` 0x40 is a FLUSH of statistics, on
bytes 8 to 55 of its record (R106, R254). -/
def homePerform (dp : DataPlane) (r : RemoteReq) : Nat × List Nat × List Byte × DataPlane :=
  let at_ := if r.kind = .atomic && r.aop = 0x40 then (r.addr + 8, 48) else (r.addr, r.len)
  let dp := dp.stir none at_.1 at_.2
  let bad := (granules at_.1 at_.2).filter (fun g => SMap.get false dp.mem.poison g)
  match r.kind with
  | .read => (if bad.isEmpty then stSuccess else stPoisonConsumed, bad, readBytes dp.mem.dev r.addr r.len, dp)
  | .write =>
    let dp := { dp with mem := dp.mem.write r.addr r.data }
    (stSuccess, [], [], dp.poisonGranules ((granules r.addr r.data.length).filter (fun g => r.poison.contains g)))
  | .atomic =>
    if !bad.isEmpty then (stPoisonConsumed, bad, [], dp)
    else if r.aop = 0x40 then
      (stSuccess, [], [], { dp with mem := dp.mem.write (r.addr + 8) (flushInto (readBytes dp.mem.dev (r.addr + 8) 48)
        ⟨fld r.data 0 8, fld r.data 8 4, fld r.data 12 4, fld r.data 16 4, fld r.data 20 4, fld r.data 24 8,
         fld r.data 32 8, fld r.data 40 8⟩) })
    else
      let old := readNat dp.mem.dev r.addr r.len
      let v := atomicNew r.aop (8 * r.len) old (leNat r.data) r.cmp.toNat
      (stSuccess, [], leBytes r.len old, if r.aop = 0x0B then dp else { dp with mem := dp.mem.write r.addr (leBytes r.len v) })

/-- Answer a source module, with the granules of the data that are poisoned; the first data byte of a refusal is its
reason. -/
def answer (dp : DataPlane) (src tag status : Nat) (bad : List Nat) (data : List Byte) : DataPlane :=
  dp.send "response" src (tag :: status :: bad) data 2 (!bad.isEmpty)

/-- Answer a new request, and keep the last 1,024 writes and atomics with their responses (R362). -/
def homeRecord (dp : DataPlane) (r : RemoteReq) (status : Nat) (bad : List Nat) (data : List Byte) : DataPlane :=
  let x := SMap.get RemoteSrc.init dp.remoteIn r.src
  let rec_ := if r.kind = .read then x.record else (x.record ++ [(r.tag, status, data)]).drop (x.record.length + 1 - 1024)
  { answer dp r.src r.tag status bad data with
    remoteIn := SMap.set RemoteSrc.init dp.remoteIn r.src ⟨true, r.tag, rec_⟩ }

/-- Refuse a request, with the report to this module's owner (R240). -/
def homeRefuse (env : Env) (dp : DataPlane) (r : RemoteReq) (reason : Nat) : DataPlane :=
  { dp with parts := logOwner (faultReport env reason r.kind remoteMaster remoteCls (globalAddr env.cfg.id r.addr) 0 0xFFFF)
              dp.parts }

/-- REMOTE_REQUEST (R212, R238, R240, R362): a repeated write or atomic is answered from the record; a repeated read is
performed again. -/
def execRemoteRequest (r : RemoteReq) (s : State) : Out :=
  s.work (fun env dp =>
    let x := SMap.get RemoteSrc.init dp.remoteIn r.src
    if x.repeated r.tag && r.kind ≠ .read then
      match x.record.find? (fun y => y.1 = r.tag) with
      | some y => answer dp r.src r.tag y.2.1 [] y.2.2
      | none => dp
    else match homeRefusal dp r with
      | some (reason, _) =>
        let dp := homeRefuse env dp r reason
        if x.repeated r.tag then answer dp r.src r.tag stAccessFault [] (leBytes 1 reason)
        else homeRecord dp r stAccessFault [] (leBytes 1 reason)
      | none =>
        let (st, bad, data, dp) := homePerform dp r
        if x.repeated r.tag then answer dp r.src r.tag st bad data else homeRecord dp r st bad data)

/-! ### The issuer's side -/

/-- How a failed response ends the issuer's instruction. -/
def remoteFault (r : RemoteOut) (status : Nat) (data : List Byte) : EFault :=
  if status = stAccessFault then EFault.access_ (data.headD 4).toNat r.kind r.addr
  else if status = stPoisonConsumed then { status, poison := some r.addr }
  else EFault.plain status

/-- A core's own unit still runs the work that sent the request. -/
def coreHeld (dp : DataPlane) : CoreId → Bool
  | .tile t _ => (dp.tile t).phase = .running || (dp.tile t).phase = .stopping
  | .hub _ => true

/-- The core still waits for the response to a tag. -/
def coreWaits (dp : DataPlane) (c : CoreId) (n : Nat) : Bool :=
  match (dp.core c).st with
  | .remoteWait tag _ _ _ _ => tag = n
  | _ => false

/-- A response reaches a core: it completes the load or atomic that waits for this tag (R362). The response to a load that an
abort has discarded is dropped (R204). -/
def coreResponse (env : Env) (dp : DataPlane) (r : RemoteOut) (c : CoreId) (status : Nat) (data : List Byte) : DataPlane :=
  if !coreHeld dp c then dp
  else if status ≠ stSuccess then
    if r.kind = .write || coreWaits dp c r.tag then coreFault env dp c (remoteFault r status data) 0 else dp
  else match (dp.core c).st with
    | .remoteWait tag rd bytes sgn acq =>
      if tag = r.tag && r.kind ≠ .write then
        (if acq then dp.acquire c .system else dp).retireReg env.plumb c rd (extend sgn bytes (leNat (data.take bytes)))
      else dp
    | _ => dp

/-- An engine that no abort has reached. -/
def engineGoes (dp : DataPlane) (t e : Nat) : Bool := !((dp.tile t).engine e).stopping

/-- A failing response ends a COPY, in the chunk that it has reached; one that an abort has reached issues nothing more. -/
def dmaFails (env : Env) (dp : DataPlane) (t e : Nat) (f : EFault) : DataPlane :=
  match ((dp.tile t).engine (7 + e)).run with
  | none => dp
  | some r =>
    if engineGoes dp t (7 + e) then copyStops env dp t e (r.writes.length - 1) r f
    else dp.modRun t (7 + e) (fun r => { r with todo := [] })

/-- Store the data of a remote read of a COPY, with the poison of each granule (R221, R231). -/
def copyLand (env : Env) (dp : DataPlane) (t e dst : Nat) (host : Bool) (src : Nat) (bad : List Nat) (bs : List Byte) :
    DataPlane :=
  match copyStore env (dp.cls t) t e host dp dst bs src (fun g => bad.contains g), ((dp.tile t).engine (7 + e)).run with
  | .error f, _ => dmaFails env dp t e f
  | .ok (dp, ws, n), some r =>
    let ws := numberWrites dp.free ws
    let (dp, r) := { r with writes := r.writes ++ [ws], remote := r.remote + n }.reach t (r.writes.length + 1)
      { dp with free := dp.free + ws.length }
    dp.modRun t (7 + e) (fun _ => r)
  | .ok (dp, _, _), none => dp

/-- A response reaches a DMA engine, which then issues what it may (R231, R232). -/
def dmaResponse (env : Env) (dp : DataPlane) (r : RemoteOut) (t e dst : Nat) (host : Bool) (status : Nat)
    (data : List Byte) (bad : List Nat) : DataPlane :=
  let dp := dp.modRun t (7 + e) (fun r => { r with remote := r.remote - 1 })
  if status = stSuccess || (status = stPoisonConsumed && r.kind = .read) then
    dmaPump env (if r.kind = .read then copyLand env dp t e dst host (bits r.addr 47 0) bad data else dp) t e
  else dmaFails env dp t e (remoteFault r status data)

/-- A response reaches the Skim unit's FLUSH (R106). -/
def skimResponse (env : Env) (dp : DataPlane) (r : RemoteOut) (t status : Nat) (data : List Byte) : DataPlane :=
  match ((dp.tile t).engine 2).run with
  | none => dp
  | some x =>
    let dp := dp.modRun t 2 (fun r => { r with remote := r.remote - 1 })
    if status = stSuccess || !engineGoes dp t 2 then dp else engineFail env dp t 2 2 x.entry (remoteFault r status data)

/-- The outstanding request of a home module and tag. -/
def DataPlane.remoteReq (dp : DataPlane) (home tag : Nat) : Option RemoteOut :=
  dp.remoteOut.find? (fun r => r.home = home && r.tag = tag)

/-- It is outstanding no longer. -/
def DataPlane.dropRemote (dp : DataPlane) (home tag : Nat) : DataPlane :=
  { dp with remoteOut := dp.remoteOut.filter (fun r => !(r.home = home && r.tag = tag)) }

/-- REMOTE_RESPONSE (R362): the first response to a tag; any other is discarded. -/
def execRemoteResponse (home tag status : Nat) (x : RespData) (s : State) : Out :=
  s.work (fun env dp =>
    match dp.remoteReq home tag with
    | none => dp
    | some r =>
      let dp := dp.dropRemote home tag
      match r.owner with
      | .core c => coreResponse env dp r c status x.bytes
      | .dma t e dst host => dmaResponse env dp r t e dst host status x.bytes x.poison
      | .skim t => skimResponse env dp r t status x.bytes)

/-- FABRIC_TIMEOUT (R363): the request fails. DMA reports DMA_TIMEOUT; a core and a FLUSH report FABRIC_TIMEOUT. -/
def execFabricTimeout (home tag : Nat) (s : State) : Out :=
  s.work (fun env dp =>
    match dp.remoteReq home tag with
    | none => dp
    | some r =>
      let dp := dp.dropRemote home tag
      match r.owner with
      | .core c => coreResponse env dp r c stFabricTimeout []
      | .dma t e dst host => dmaResponse env dp r t e dst host stDmaTimeout [] []
      | .skim t => skimResponse env dp r t stFabricTimeout [])

end Sys2Proof.Machine
end

