-- ==== Sys2Proof/Machine/Serving.lean ====
section
/-! DEFINITION. Resident serving (R332 to R339): the service commands, ingress and admission, the steps that the scheduler
forms, their end and their retries. -/

namespace Sys2Proof.Machine

def servicePart (v : Service) (off n : Nat) : Nat := fld v.desc off n

/-- The hub's master in reports of the service's accesses (R235): hub core cluster 0. -/
def serviceMaster : Nat := 0x604

/-- A tile number that no tile has: the hub's own region operations touch no tile's cache. -/
def noTile : Nat := 168

/-! ### SERVE_CMD (R332) -/

/-- Write SERVE_CMD's result. -/
def serveResult (dp : DataPlane) (fn result : Nat) : DataPlane := commandResult dp fn 0x4020 result

def serveArg (dp : DataPlane) (fn : Nat) : Nat := bits (dp.regWord fn 0x4028) 30 0 * 2 ^ 32 + dp.regWord fn 0x4024

/-- Ring-table entries in range, with an RC queue pair of the partition. -/
def ringOk (dp : DataPlane) (p : Nat) (b : List Byte) : Bool :=
  fld b 0 8 % 256 = 0 && 4 ≤ fld b 8 1 && fld b 8 1 ≤ 16 && 4 ≤ fld b 9 1 && fld b 9 1 ≤ 16 && zeros b 0x1C 4 &&
  (match dp.qp (fld b 0xA 2) with
    | some x => x.part = p && !x.ud
    | none => false)

def ringOf (at_ : Nat) (b : List Byte) : Ring :=
  { inBase := fld b 0 8, inSize := fld b 8 1, egSize := fld b 9 1, qp := fld b 0xA 2, egKey := fld b 0xC 4, egBase := fld b 0x10 8,
    egHeadAt := at_ + 0x18, count := 0, consumed := 0, told := 0, egCount := 0, stopped := false,
    marks := [] }

/-- Descriptor fields in range. -/
def serviceDescOk (dp : DataPlane) (p : Nat) (b : List Byte) : Bool :=
  fld b 0 2 = 1 && (dp.part p).queues.contains (fld b 2 1) && 1 ≤ fld b 3 1 && fld b 3 1 ≤ 64 && 1 ≤ fld b 4 4 &&
  fld b 4 4 ≤ 65536 && 1 ≤ fld b 8 2 && fld b 8 2 ≤ 4096 && fld b 0xA 2 % 128 = 0 && 128 ≤ fld b 0xA 2 && fld b 0xA 2 ≤ 16384 &&
  fld b 0xC 4 ≤ 100000 && (dp.poolOf p (fld b 0x28 1)).isSome && fld b 0x29 1 ≤ 15 && zeros b 0x2A 2 && zeros b 0x50 48 &&
  (fld b 0x29 1 = 0 || fld b 0x48 8 ≠ 0)

/-- Read and check the argument's descriptor and rings: RESULT 4 unreadable, 3 invalid. -/
def readService (env : Env) (dp : DataPlane) (fn : Nat) : Except Nat (List Byte × List Ring) :=
  match hubRead env dp fn false (serveArg dp fn) 128 with
  | .error _ => .error 4
  | .ok b =>
    if bit (dp.regWord fn 0x4028) 31 || !serviceDescOk dp fn b then .error 3
    else match hubRead env dp fn false (fld b 0x10 8) (32 * fld b 3 1) with
      | .error _ => .error 4
      | .ok t =>
        let es := pieces 32 (fld b 3 1) t
        if es.all (ringOk dp fn) then .ok (b, (es.zipIdx).map (fun e => ringOf (fld b 0x10 8 + 32 * e.2) e.1)) else .error 3

/-- A function that may command a service: its partition is READY. -/
def mayServe (dp : DataPlane) (fn : Nat) : Bool := fnExists dp fn && (dp.part fn).st = .ready

/-- SERVE_START (R332). -/
def execServeStart (fn : Nat) (s : State) : Out :=
  s.work (fun env dp =>
    if !fnExists dp fn then dp
    else if !mayServe dp fn || (dp.service fn).isSome then serveResult dp fn 2
    else match readService env dp fn with
      | .error r => serveResult dp fn r
      | .ok (b, rs) => (serveResult dp fn 0).setService fn (some ⟨b, none, rs, [], 1, none, false, []⟩))

/-- SERVE_UPDATE (R332): it takes effect at the next step. -/
def execServeUpdate (fn : Nat) (s : State) : Out :=
  s.work (fun env dp =>
    if !fnExists dp fn then dp
    else match dp.service fn with
      | none => serveResult dp fn 2
      | some v =>
        if !mayServe dp fn || v.stopping then serveResult dp fn 2
        else match readService env dp fn with
          | .error r => serveResult dp fn r
          | .ok x => (serveResult dp fn 0).setService fn (some { v with pendingDesc := some x }))

/-! ### Regions -/

/-- Free a request's region (R175, R335), as far as it is still live. -/
def freeRegion (dp : DataPlane) (p handle : Nat) : DataPlane :=
  if handle = 0 then dp
  else match readRegion dp p none handle with
    | .error _ => dp
    | .ok r => ((r.blockList 0 r.blocks).foldl (dropBlock noTile r) dp).put noTile r.at_ 1 0

/-- The lowest free entry of the region table. -/
def freeEntry (dp : DataPlane) (p : Nat) : Option Nat :=
  (List.range (dp.part p).rtlen).find? (fun i => i ≠ 0 && readNat dp.mem.dev (regEntAddr (dp.part p) i) 1 = 0)

/-- Create a region for a request (R159, R338): MAXLEN, the service's pool and format. -/
def createRegion (env : Env) (dp : DataPlane) (p : Nat) (v : Service) : Option (Nat × DataPlane) :=
  match freeEntry dp p, readFmtDesc dp p none (servicePart v 0x20 8) with
  | some i, .ok fd =>
    let a := regEntAddr (dp.part p) i
    let gen := ((regEntOf (readBytes dp.mem.dev a 64)).gen + 1) % 65536
    let maxlen := servicePart v 0x2C 4
    let ent := leBytes 1 1 ++ leBytes 1 (servicePart v 0x28 1) ++ leBytes 2 fd.layers ++ leBytes 2 gen ++ leBytes 2 0 ++
      leBytes 8 (Config.serviceVbase p i) ++ leBytes 4 maxlen ++ leBytes 4 0 ++ leBytes 4 0 ++ leBytes 4 0 ++
      leBytes 8 (Config.serviceTable p i) ++ leBytes 8 (servicePart v 0x20 8)
    (match (do
        let dp ← hubWrite env dp p false a ent
        hubWrite env dp p false (Config.serviceTable p i) (List.replicate (4 * fd.layers * ceilDiv maxlen 128) 0)) with
      | .ok dp => some (i + 65536 * gen, dp)
      | .error _ => none)
  | _, _ => none

/-- Share the prefix's blocks with a new region (R163); none when a page's count is at its limit. -/
def forkPrefix (dp : DataPlane) (p pfx n handle : Nat) : Option DataPlane :=
  match readRegion dp p none pfx, readRegion dp p none handle with
  | .ok src, .ok dst =>
    let bl := src.blockList 0 (ceilDiv n 128)
    if forkOk dp src dst n && bl.all (fun b => readNat dp.mem.dev (src.pool.refAddr (ptePage (src.pte dp b.1 b.2))) 2 < 65535) then
      let dp := bl.foldl (forkBlock noTile src dst) dp
      some ((dp.put noTile (dst.at_ + 0x14) 4 n).put noTile (dst.at_ + 0x18) 4 n)
    else none
  | _, _ => none

/-- Make a request's region, forked from its prefix where it names one. -/
def regionFor (env : Env) (p : Nat) (v : Service) (dp : DataPlane) (r : Req) : DataPlane × Req :=
  if r.region ≠ 0 then (dp, r)
  else match createRegion env dp p v with
    | none => (dp, r)
    | some (h, dp) =>
      if r.pfx = 0 then (dp, { r with region := h, ctx := 0 })
      else match forkPrefix dp p r.pfx r.plen h with
        | some dp => (dp, { r with region := h, ctx := r.plen })
        | none => (dp, { r with region := h, ctx := 0 })

/-! ### Ingress (R333, R335) -/

/-- Slots of a NEW entry. -/
def newSlots (ntok : Nat) : Nat := 1 + ceilDiv (ntok - 48) 64

/-- A slot of a ring. -/
def readSlot (env : Env) (dp : DataPlane) (p : Nat) (r : Ring) (k : Nat) : Except EFault (List Byte) :=
  hubRead env dp p false (r.inBase + 256 * (k % 2 ^ r.inSize)) 256

/-- The prompt of a NEW entry, from its header and continuation slots. -/
def readPrompt (env : Env) (dp : DataPlane) (p : Nat) (r : Ring) (k : Nat) : Nat → Except EFault (List Byte)
  | 0 => .ok []
  | n + 1 => do
    let bs ← readPrompt env dp p r k n
    let b ← readSlot env dp p r (k + 1 + n)
    pure (bs ++ b)

/-- A NEW entry is well formed (R335). -/
def newOk (dp : DataPlane) (p : Nat) (v : Service) (b : List Byte) : Bool :=
  let maxlen := servicePart v 0x2C 4
  let tp := f32 (fld b 0x1C 4)
  zeros b 1 1 && 1 ≤ fld b 4 4 && fld b 4 4 + 1 ≤ maxlen && 1 ≤ fld b 0x10 4 && fld b 0x14 2 ≤ 1024 && zeros b 0x16 2 &&
  tp.isFin && (FVal.fin false 0 1).lt tp && !(FVal.fin false 1 1).lt tp &&
  (fld b 2 2 = 0xFFFF || servicePart v 0x30 8 ≠ 0) &&
  (fld b 0x38 4 = 0 || (fld b 0x3C 4 < fld b 4 4 && (match readRegion dp p none (fld b 0x38 4) with
    | .ok g => fld b 0x3C 4 ≤ g.ent.len && g.ent.fmt = servicePart v 0x20 8 && g.ent.pool = servicePart v 0x28 1
    | .error _ => false)))

/-- The request of a NEW entry; TOP_K 0 is taken as 1,024. -/
def reqOf (key ring since : Nat) (b prompt : List Byte) : Req :=
  { key := key, ring := ring, id := fld b 8 8, adapter := fld b 2 2, prompt := (List.range (fld b 4 4)).map (fun i => fld prompt (4 * i) 4),
    maxNew := fld b 0x10 4, topK := if fld b 0x14 2 = 0 then 1024 else fld b 0x14 2, invTemp := fld b 0x18 4, topP := fld b 0x1C 4,
    seed := fld b 0x20 8, stops := ((List.range 4).map (fun i => fld b (0x28 + 4 * i) 4)).filter (· ≠ 0xFFFFFFFF),
    pfx := fld b 0x38 4, plen := fld b 0x3C 4, region := 0, ctx := 0, emitted := [], running := false,
    since := since }

/-- Change a partition's service. -/
def modService (dp : DataPlane) (p : Nat) (f : Service → Service) : DataPlane :=
  match dp.service p with
  | some v => dp.setService p (some (f v))
  | none => dp

/-- End a request: its entry, its region, and its place among the live ones. -/
def endReq (env : Env) (dp : DataPlane) (p : Nat) (r : Req) (end_ status : Nat) : DataPlane :=
  let dp := freeRegion (egressAdd env dp p r.ring r.id r.emitted.length end_ status []) p r.region
  modService dp p (fun v => { v with reqs := v.reqs.filter (fun x => x.key ≠ r.key) })

/-- The Plumb time at which slot `k` of a ring arrived. -/
def Ring.arrival (r : Ring) (k now : Nat) : Nat :=
  match r.marks.find? (fun m => let n := span32 m.1 k; 0 < n && n ≤ 2 ^ r.inSize) with
  | some m => m.2
  | none => now

/-- Take one ingress entry at slot `k` of ring `i`, of which `have_` slots have arrived; answers the slots it takes, 0 when
its continuation slots have not arrived. A NEW entry of more slots than the ring holds takes all that have (log entry 74). -/
def takeEntry (env : Env) (dp : DataPlane) (p i : Nat) (v : Service) (r : Ring) (k have_ : Nat) :
    Except EFault (Nat × DataPlane) := do
  let b ← readSlot env dp p r k
  let n := newSlots (fld b 4 4)
  if fld b 0 1 = 2 then
    match v.reqs.find? (fun x => x.ring = i && x.id = fld b 8 8) with
    | some x => pure (1, endReq env dp p x 4 stSuccess)
    | none => pure (1, dp)
  else if fld b 0 1 ≠ 1 then pure (1, egressAdd env dp p i (fld b 8 8) 0 5 stRequestInvalid [])
  else if have_ < n && n ≤ 2 ^ r.inSize then pure (0, dp)
  else if !newOk dp p v b || have_ < n then pure (min n have_, egressAdd env dp p i (fld b 8 8) 0 5 stRequestInvalid [])
  else
    let more ← readPrompt env dp p r k (n - 1)
    pure (n, modService dp p (fun v =>
      { v with reqs := v.reqs ++ [reqOf v.nextKey i (r.arrival k env.plumb) b ((b.drop 0x40).take 192 ++ more)],
               nextKey := v.nextKey + 1 }))

/-- Slots of a ring have been taken. -/
def Ring.take (r : Ring) (n : Nat) : Ring :=
  let c := (r.consumed + n) % 2 ^ 32
  { r with consumed := c, marks := r.marks.filter (fun m => let k := span32 m.1 c; 0 < k && k ≤ 2 ^ r.inSize) }

/-- Read a ring's new entries in order; `fuel` bounds their number. A slot that cannot be read stops the reading. -/
def readRing (env : Env) (p i : Nat) : Nat → DataPlane → DataPlane
  | 0, dp => dp
  | fuel + 1, dp =>
    match dp.service p with
    | none => dp
    | some v =>
      match v.rings[i]? with
      | none => dp
      | some r =>
        if r.stopped || r.consumed = r.count then dp
        else match takeEntry env dp p i v r r.consumed (span32 r.count r.consumed) with
          | .error f => hubFault env dp p serviceMaster 0 0xFFFF f
          | .ok (0, dp) => dp
          | .ok (n + 1, dp) => readRing env p i fuel (modService dp p (fun v => v.modRing i (·.take (n + 1))))

/-- Write each ring's consumed count to its client when it has changed (R332). -/
def tellConsumed (dp : DataPlane) (p : Nat) : DataPlane :=
  match dp.service p with
  | none => dp
  | some v =>
    (v.rings.zipIdx).foldl (fun dp x =>
      if x.1.consumed = x.1.told then dp
      else modService (netSend dp x.1.qp "write" true [x.1.egKey, x.1.egBase + 128 * 2 ^ x.1.egSize] (leBytes 4 x.1.consumed)) p
        (fun v => v.modRing x.2 (fun r => { r with told := r.consumed }))) dp

/-- Index among new rings of the one that an old ring becomes: the same ingress ring and queue pair. -/
def newIndex (rs : List Ring) (old : Ring) : Option Nat := rs.findIdx? (fun r => r.inBase = old.inBase && r.qp = old.qp)

/-- The old ring that a new one continues. -/
def oldRing (v : Service) (r : Ring) : Option Ring := v.rings.find? (fun o => o.inBase = r.inBase && o.qp = r.qp && !o.stopped)

/-- UPDATE takes effect (R332, R333): a ring that it names again keeps its counts unless it was stopped, and its requests
and waiting entries stay with it. Requests of a ring that it does not name end with END 4 (log entry 74). -/
def applyUpdate (env : Env) (dp : DataPlane) (p : Nat) : DataPlane :=
  match dp.service p with
  | none => dp
  | some v =>
    match v.pendingDesc with
    | none => dp
    | some (b, rs) =>
      let place := fun (i : Nat) => (v.rings[i]?).bind (newIndex rs)
      let dp := flushEgress ((v.reqs.filter (fun r => (place r.ring).isNone)).foldl (fun dp r => endReq env dp p r 4 stSuccess) dp) p
      modService dp p (fun w => { w with
        desc := b, pendingDesc := none
        rings := rs.map (fun r => match oldRing w r with
          | some o => { r with count := o.count, consumed := o.consumed, told := o.told, egCount := o.egCount, marks := o.marks }
          | none => r)
        reqs := w.reqs.filterMap (fun r => (place r.ring).map (fun i => { r with ring := i }))
        out := w.out.filterMap (fun x => (place x.1).map (fun i => (i, x.2))) })

/-! ### Forming a step (R336, R337) -/

/-- A client's egress ring has no free slot, or entries for it wait for one (R335). -/
def egressFull (dp : DataPlane) (v : Service) (i : Nat) : Bool :=
  match v.rings[i]? with
  | some r => 2 ^ r.egSize ≤ r.unread dp || v.out.any (fun x => x.1 = i)
  | none => true

/-- The tokens that a request has still to put in its region: those of the prompt and of the answer so far. -/
def Req.tokens (r : Req) : List Nat := r.prompt ++ r.emitted

/-- Candidates of a running sequence: DRAFT, or fewer where MAXLEN or MAX_NEW leaves less room (R337). -/
def Req.cands (r : Req) (v : Service) (draft : Nat) : Nat :=
  min draft (min (servicePart v 0x2C 4 - r.ctx - 1) (r.maxNew - r.emitted.length - 1))

/-- The entry that a request would take. -/
def Req.entry (r : Req) (v : Service) (draft : Nat) : StepEntry :=
  if r.running then ⟨r.key, 1 + r.cands v draft, r.cands v draft⟩
  else ⟨r.key, min (servicePart v 0xA 2) (r.tokens.length - r.ctx), 0⟩

/-- Adapters that a step applies. -/
def adaptersOf (rs : List Req) : List Nat :=
  (rs.map (·.adapter)).foldl (fun l a => if a = 0xFFFF || l.contains a then l else l ++ [a]) []

/-- Requests in the order of R336: running ones in admission order, then prompts by ring and arrival. -/
def stepOrder (v : Service) (rs : List Req) : List Req :=
  rs.filter (·.running) ++ (List.range v.rings.length).flatMap (fun i => rs.filter (fun r => !r.running && r.ring = i))

/-- Take requests until BUDGET or MAXSEQ would be exceeded (R336), and whether that has made the step full; a sequence whose
adapter is not among the step's 8 waits (R331). -/
def fillStep (v : Service) (draft : Nat) : List Req → List Req → Nat → List Req × Bool
  | [], taken, n => (taken, servicePart v 4 4 ≤ n || servicePart v 8 2 ≤ taken.length)
  | r :: rs, taken, n =>
    if 8 < (adaptersOf (taken ++ [r])).length then fillStep v draft rs taken n
    else
      let k := (r.entry v draft).new
      if servicePart v 4 4 < n + k || servicePart v 8 2 < taken.length + 1 then (taken, true)
      else fillStep v draft rs (taken ++ [r]) (n + k)

/-- A step is launched (R336): a running sequence is due, the step is full, or its oldest request has waited WAIT_US. -/
def stepDue (env : Env) (v : Service) (batch : List Req) (full : Bool) : Bool :=
  full || batch.any (fun r => r.running || r.since + 1000 * servicePart v 0xC 4 ≤ env.plumb)

/-- Entries with each adapter's sequences adjacent (R331). -/
def byAdapter (rs : List Req) : List Req :=
  rs.filter (fun r => r.adapter = 0xFFFF) ++ (adaptersOf rs).flatMap (fun a => rs.filter (fun r => r.adapter = a))

/-- Start rows of entries. -/
def startRows : List StepEntry → Nat → List (StepEntry × Nat)
  | [], _ => []
  | e :: es, n => (e, n) :: startRows es (n + e.new)

def Service.req (v : Service) (key : Nat) : Option Req := v.reqs.find? (fun r => r.key = key)

/-- Address of an array of the work area. -/
def workAt (v : Service) (p array : Nat) : Nat := servicePart v 0x38 8 + Config.serviceWork p array

/-- The Stencil table with CHECKED 0 (R166, R167, R338). -/
def stencilBytes (v : Service) (es : List StepEntry) : List Byte :=
  let total := es.foldl (fun n e => n + e.new) 0
  leBytes 2 es.length ++ leBytes 2 0 ++ leBytes 4 total ++ leBytes 56 0 ++
  (startRows es 0).flatMap (fun x =>
    let r := v.req x.1.req
    leBytes 4 ((r.map (·.region)).getD 0) ++ leBytes 4 x.2 ++ leBytes 2 x.1.new ++ leBytes 1 x.1.cand ++
    leBytes 1 (b2n (x.1.cand ≠ 0)) ++ leBytes 4 ((r.map (·.ctx)).getD 0) ++ leBytes 16 0)

/-- The input-token rows of the entries, candidates left for the draft program. -/
def tokenRows (v : Service) (es : List StepEntry) : List (Nat × List Byte) :=
  (startRows es 0).map (fun x => match v.req x.1.req with
    | none => (x.2, [])
    | some r =>
      let ts := if r.running then [r.emitted.getLast?.getD 0] else (r.tokens.drop r.ctx).take x.1.new
      (x.2, ts.flatMap (leBytes 4)))

/-- The parameter array (R340). -/
def paramBytes (v : Service) (es : List StepEntry) : List Byte :=
  es.flatMap (fun e => match v.req e.req with
    | none => leBytes 32 0
    | some r => leBytes 4 r.invTemp ++ leBytes 4 r.topP ++ leBytes 2 r.topK ++ leBytes 2 0 ++ leBytes 4 r.emitted.length ++
        leBytes 8 r.seed ++ leBytes 8 0)

/-- The adapter runs of a step (R331): adapter, first batch row and rows of each, sequences without an adapter left out. -/
def adapterRuns (v : Service) : List (StepEntry × Nat) → List Nat
  | [] => []
  | x :: xs =>
    let a := ((v.req x.1.req).map (·.adapter)).getD 0xFFFF
    if a = 0xFFFF then adapterRuns v xs
    else match adapterRuns v xs with
      | b :: s :: n :: r => if b = a && s = x.2 + x.1.new then a :: x.2 :: (x.1.new + n) :: r else a :: x.2 :: x.1.new :: b :: s :: n :: r
      | r => a :: x.2 :: x.1.new :: r

/-- Write the step's arrays (R338, step 2). -/
def writeArrays (env : Env) (p : Nat) (v : Service) (es : List StepEntry) (dp : DataPlane) : Except EFault DataPlane := do
  let dp ← hubWrite env dp p false (workAt v p 0) (stencilBytes v es)
  let dp ← (tokenRows v es).foldlM (fun dp x => hubWrite env dp p false (workAt v p 1 + 4 * x.1) x.2) dp
  let dp ← hubWrite env dp p false (workAt v p 2) (paramBytes v es)
  hubWrite env dp p false (workAt v p 4) (Config.adapterRuns (adapterRuns v (startRows es 0)))

/-- A wait for the next signal of a service event. -/
def waitNext (dp : DataPlane) (p kind : Nat) : Nat :=
  let e := Config.serviceEvent kind % 2048
  2 ^ 31 + e * 2 ^ 20 + ((SMap.get Event.init dp.events (evKey p e)).count + 1) % 2 ^ 20

def signalOf (kind : Nat) : Nat := 2 ^ 31 + Config.serviceEvent kind % 2048 * 2 ^ 20

/-- Clear the ERR bits of the service's events before a step uses them. -/
def clearServiceErr (dp : DataPlane) (p : Nat) : DataPlane :=
  (List.range 5).foldl (fun dp k =>
    { dp with events := SMap.modify Event.init dp.events (evKey p (Config.serviceEvent k % 2048)) (fun x => { x with err := false }) }) dp

/-- A template with the waits and the signal of its place in the step. -/
def withEvents (b waits signals : List Byte) : List Byte := b.take 0x28 ++ waits ++ signals ++ (b.drop 0x40).take 0xC0

/-- A record of hub firmware's own (R269, R338): a launch, or the sampling command, with the events of its place. -/
def firmwareRecord (kind p n : Nat) (waits signals : List Byte) : List Byte :=
  let (g, x, y, z) := Config.serviceGrid kind p n
  let const := (Config.serviceConst kind p n ++ List.replicate 160 0).take 160
  if kind = 3 then leBytes 4 3 ++ leBytes 1 3 ++ leBytes 35 0 ++ waits ++ signals ++ const ++ leBytes 32 0
  else leBytes 4 1 ++ leBytes 1 g ++ leBytes 1 0 ++ leBytes 2 x ++ leBytes 2 y ++ leBytes 2 z ++ leBytes 4 0 ++
    leBytes 6 (Config.serviceProgram kind p) ++ leBytes 18 0 ++ waits ++ signals ++ const ++ leBytes 32 0

/-- The arrays that a record of hub firmware's own names (R170, R174, R338, R340). -/
def recordArrays (v : Service) (p kind : Nat) : List Nat :=
  if kind = 0 then [workAt v p 0]
  else if kind = 3 then [workAt v p 0, workAt v p 5, workAt v p 1, workAt v p 2, workAt v p 3, workAt v p 6]
  else if kind = 4 then [workAt v p 0, workAt v p 6]
  else []

/-- The records that a record of a step waits on (R337, R338). -/
def stepNeeds (draft : Bool) : Nat → List Nat
  | 0 => []
  | 1 => [0]
  | 2 => if draft then [0, 1] else [0]
  | 3 => [2]
  | _ => [3]

/-- The 256 bytes of a step's record: a template in memory, or the firmware's own; it waits on the records that it needs and
signals its own event (R338). -/
def stepRecordBytes (env : Env) (dp : DataPlane) (p : Nat) (v : Service) (kind n : Nat) (draft : Bool) :
    Except EFault (List Byte) := do
  let ws := (stepNeeds draft kind).map (waitNext dp p)
  let waits := (List.range 4).flatMap (fun i => leBytes 4 (ws.getD i 0))
  let signals := leBytes 4 (signalOf kind) ++ leBytes 4 0
  if kind = 1 then
    let b ← hubRead env dp p false (servicePart v 0x48 8) 256
    pure (withEvents b waits signals)
  else if kind = 2 then
    let b ← hubRead env dp p false (servicePart v 0x18 8) 256
    pure (withEvents b waits signals)
  else pure (firmwareRecord kind p n waits signals)

/-- Write the records of a step into the ring of its queue, from record number `at_` on (R265, R338). -/
def submitAll (env : Env) (p : Nat) (v : Service) (n : Nat) (draft : Bool) :
    List Nat → Nat → DataPlane → Except EFault (DataPlane × List StepRec)
  | [], _, dp => .ok (dp, [])
  | k :: ks, at_, dp => do
    let b ← stepRecordBytes env dp p v k n draft
    let x := dp.queue (servicePart v 2 1)
    let dp ← hubWrite env dp p x.rhost (x.ring + 256 * (at_ % 2 ^ x.rsize)) b
    let (dp, rs) ← submitAll env p v n draft ks ((at_ + 1) % 2 ^ 32) dp
    pure (dp, ⟨k, at_, none, none, recordArrays v p k⟩ :: rs)

/-- The scheduler has read the completion records of its queue (R268; log entry 45). -/
def readCompletions (dp : DataPlane) (q : Nat) : DataPlane := dp.setQueue q { dp.queue q with cqhead := (dp.queue q).written }

/-- Write a step's arrays and records, and ring the doorbell of its queue (R267, R337, R338). A refused access is reported,
and no step runs. -/
def submitStep (env : Env) (dp : DataPlane) (p : Nat) (draft : Bool) (es : List StepEntry) : DataPlane :=
  match dp.service p with
  | none => dp
  | some v =>
    let q := servicePart v 2 1
    let dp := readCompletions dp q
    let tail := (dp.queue q).tail
    if (dp.queue q).st ≠ .active then modService dp p (fun v => { v with step := none })
    else match (do
      let dp ← writeArrays env p v es (clearServiceErr dp p)
      submitAll env p v es.length draft (if draft then [0, 1, 2, 3, 4] else [0, 2, 3, 4]) tail dp) with
    | .ok (dp, rs) =>
      ringDoorbell env (modService dp p (fun v => { v with step := some ⟨es, rs, draft⟩ })) q ((tail + rs.length) % 2 ^ 32)
    | .error f => modService (hubFault env dp p serviceMaster 0 q f) p (fun v => { v with step := none })

/-- No step runs now: the consumed counts are written, then the waiting egress entries (R332, R335). -/
def noStep (dp : DataPlane) (p : Nat) : DataPlane := flushEgress (tellConsumed dp p) p

/-- Form a step from the live requests: the batch, and regions for new requests (R336). -/
def formStep (env : Env) (dp : DataPlane) (p draft : Nat) : DataPlane :=
  match dp.service p with
  | none => dp
  | some v =>
    let ready := v.reqs.filter (fun r => !egressFull dp v r.ring)
    let (taken, full) := fillStep v draft (stepOrder v ready) [] 0
    if !stepDue env v taken full then noStep dp p
    else
      let (dp, made) := (byAdapter taken).foldl (fun x r =>
        let (dp, r) := regionFor env p v x.1 r
        (dp, x.2 ++ [r])) (dp, [])
      let dp := modService dp p (fun v => { v with
        reqs := v.reqs.map (fun r => (made.find? (fun m => m.key = r.key)).getD r) })
      let es := (made.filter (fun r => r.region ≠ 0)).map (fun r => r.entry v draft)
      if es.isEmpty then noStep dp p else submitStep env dp p (0 < draft) es

/-- A service that STOP has stopped is gone once its last entries have been written (R332, R335). -/
def settleStopped (dp : DataPlane) (p : Nat) : DataPlane :=
  match dp.service p with
  | some v => if v.stopping && v.step.isNone && v.out.isEmpty then dp.setService p none else dp
  | none => dp

/-- SERVICE_STEP_FORM (R336, R338): waiting egress entries go out, an UPDATE takes effect, ingress is read, and a step is
launched once one is due. -/
def execServiceStepForm (p : Nat) (s : State) : Out :=
  s.work (fun env dp =>
    match dp.service p with
    | none => dp
    | some v =>
      if v.step.isSome || (dp.part p).st ≠ .ready then dp
      else
        let dp := flushEgress dp p
        if v.stopping then settleStopped dp p
        else if (dp.queue (servicePart v 2 1)).st ≠ .active then dp
        else
          let dp := (List.range 64).foldl (fun dp i => readRing env p i (2 ^ 16) dp) (applyUpdate env dp p)
          formStep env dp p ((dp.service p).map (fun v => servicePart v 0x29 1) |>.getD 0))

/-! ### The end of a step (R334, R338) -/

/-- Every record of the step has completed. -/
def ServeStep.complete (t : ServeStep) : Bool := t.recs.all (fun r => r.status.isSome)

/-- Status of the step's record of a kind; SUCCESS where it has none. -/
def ServeStep.status (t : ServeStep) (kind : Nat) : Nat :=
  match t.recs.find? (fun r => r.kind = kind) with
  | some r => r.status.getD stSuccess
  | none => stSuccess

/-- First failing status of the step, in submission order. -/
def ServeStep.failure (t : ServeStep) : Option Nat :=
  (t.recs.find? (fun r => setsErr (r.status.getD stSuccess))).map (fun r => r.status.getD stSuccess)

/-- Egress entries of up to 24 tokens; END stands on the last (R334). `fuel` bounds their number. -/
def emitTokens (env : Env) (p : Nat) (r : Req) (end_ : Nat) : Nat → DataPlane → Nat → List Nat → DataPlane
  | 0, dp, _, _ => dp
  | fuel + 1, dp, index, ts =>
    if ts.length ≤ 24 then egressAdd env dp p r.ring r.id index end_ stSuccess ts
    else emitTokens env p r end_ fuel (egressAdd env dp p r.ring r.id index 0 stSuccess (ts.take 24)) (index + 24) (ts.drop 24)

/-- Tokens up to the first stop token, that one with them. -/
def cutStop (stops : List Nat) : List Nat → List Nat × Bool
  | [] => ([], false)
  | t :: ts =>
    if stops.contains t then ([t], true)
    else
      let (r, hit) := cutStop stops ts
      (t :: r, hit)

/-- Why a request ends after new tokens: 1 stop token, 2 MAX_NEW, 3 MAXLEN, 0 not yet. -/
def endCode (v : Service) (r : Req) (hit : Bool) : Nat :=
  if hit then 1 else if r.maxNew ≤ r.emitted.length then 2 else if servicePart v 0x2C 4 ≤ r.ctx then 3 else 0

/-- Update one request with its output entry: accepted candidates and the next token. -/
def finishEntry (env : Env) (p : Nat) (v : Service) (dp : DataPlane) (x : StepEntry × Nat × List Byte × List Byte) : DataPlane :=
  let (e, _, out, toks) := x
  match v.req e.req with
  | none => dp
  | some r =>
    if fld out 2 2 ≠ stSuccess then endReq env dp p r 5 (fld out 2 2)
    else if !r.running && r.ctx + e.new < r.tokens.length then
      modService dp p (fun v => { v with reqs := v.reqs.map (fun y => if y.key = r.key then { y with ctx := y.ctx + e.new } else y) })
    else
      let n := fld out 1 1
      let drawn := (List.range n).map (fun k => fld toks (4 * (1 + k)) 4) ++ [fld out 4 4]
      let (ts, hit) := cutStop r.stops (drawn.take (r.maxNew - r.emitted.length))
      let r' := { r with ctx := r.ctx + (e.new - e.cand) + n, emitted := r.emitted ++ ts, running := true }
      let end_ := endCode v r' hit
      let dp := emitTokens env p r end_ 4 dp r.emitted.length ts
      if end_ = 0 then
        modService dp p (fun v => { v with reqs := v.reqs.map (fun y => if y.key = r.key then r' else y) })
      else modService (freeRegion dp p r.region) p (fun v => { v with reqs := v.reqs.filter (fun y => y.key ≠ r.key) })

/-- Read each entry's output and tokens. -/
def readOutputs (env : Env) (dp : DataPlane) (p : Nat) (v : Service) :
    List (StepEntry × Nat) → Nat → Except EFault (List (StepEntry × Nat × List Byte × List Byte))
  | [], _ => .ok []
  | (e, row) :: es, i => do
    let out ← hubRead env dp p false (workAt v p 3 + 8 * i) 8
    let toks ← hubRead env dp p false (workAt v p 1 + 4 * row) (4 * e.new)
    let r ← readOutputs env dp p v es (i + 1)
    pure ((e, row, out, toks) :: r)

/-- Stop a service (R332): a final entry with END 4 for every live request, and their regions are freed. -/
def stopService (env : Env) (dp : DataPlane) (p : Nat) : DataPlane :=
  match dp.service p with
  | none => dp
  | some v =>
    let dp := (v.reqs).foldl (fun dp r => endReq env dp p r 4 stSuccess) dp
    settleStopped (noStep (modService dp p (fun v => { v with stopping := true, step := none, reqs := [] })) p) p

/-- The step is over: its egress entries go out, and the service goes on, or stops when STOP has come. -/
def stepDone (env : Env) (dp : DataPlane) (p : Nat) : DataPlane :=
  match dp.service p with
  | none => dp
  | some v =>
    let dp := readCompletions dp (servicePart v 2 1)
    if v.stopping then stopService env dp p else flushEgress (modService dp p (fun v => { v with step := none })) p

/-- SERVICE_STEP_FINISH (R338): outputs, ends, egress and consumed counts. A step that failed in a way that R337 and R339
do not name ends its requests with END 5 and that status. -/
def execServiceStepFinish (p : Nat) (s : State) : Out :=
  s.work (fun env dp =>
    match dp.service p with
    | none => dp
    | some v =>
      match v.step with
      | none => dp
      | some t =>
        let retry := t.status 0 = stKvPoolExhausted || (t.status 0 = stSuccess && setsErr (t.status 1))
        if !t.complete || retry then dp
        else
          let dp := tellConsumed dp p
          match t.failure with
          | some st => stepDone env (t.entries.foldl (fun dp e => match v.req e.req with
              | some r => endReq env dp p r 5 st
              | none => dp) dp) p
          | none =>
            match readOutputs env dp p v (startRows t.entries 0) 0 with
            | .error f => stepDone env (t.entries.foldl (fun dp e => match v.req e.req with
                | some r => endReq env dp p r 5 f.status
                | none => dp) (hubFault env dp p serviceMaster 0 (servicePart v 2 1) f)) p
            | .ok os => stepDone env (os.foldl (finishEntry env p v) dp) p)

/-- SERVE_STOP (R332): the running step finishes first. -/
def execServeStop (fn : Nat) (s : State) : Out :=
  s.work (fun env dp =>
    if !fnExists dp fn then dp
    else match dp.service fn with
      | none => serveResult dp fn 2
      | some v =>
        if !mayServe dp fn || v.stopping then serveResult dp fn 2
        else if v.step.isSome then (serveResult dp fn 0).setService fn (some { v with stopping := true })
        else stopService env (serveResult dp fn 0) fn)

/-! ### Retries (R337, R339) -/

/-- A request goes back to its prompt and emitted tokens, without a region. -/
def requeue (dp : DataPlane) (p : Nat) (r : Req) : DataPlane :=
  modService (freeRegion dp p r.region) p (fun v => { v with
    reqs := v.reqs.map (fun y => if y.key = r.key then { y with region := 0, ctx := 0, running := false } else y) })

/-- A STOP that came while the step ran takes effect once no step runs. -/
def settleService (env : Env) (dp : DataPlane) (p : Nat) : DataPlane :=
  match dp.service p with
  | some v => if v.stopping && v.step.isNone then stopService env dp p else dp
  | none => dp

/-- Resubmit a step with other entries. -/
def resubmit (env : Env) (dp : DataPlane) (p : Nat) (draft : Bool) (es : List StepEntry) : DataPlane :=
  if es.isEmpty then noStep (modService dp p (fun v => { v with step := none })) p else submitStep env dp p draft es

/-- RESERVE_EXHAUSTED_RETRY (R339): entries from RESERVED on are dropped; with RESERVED 0 the most recently admitted
running sequence is preempted, and a step is formed from what remains. -/
def execReserveExhaustedRetry (p : Nat) (s : State) : Out :=
  s.work (fun env dp =>
    match dp.service p with
    | none => dp
    | some v =>
      match v.step with
      | none => dp
      | some t =>
        if !t.complete || t.status 0 ≠ stKvPoolExhausted then dp
        else match hubRead env dp p false (workAt v p 0 + 0x10) 2 with
          | .error f => settleService env
              (modService (hubFault env dp p serviceMaster 0 (servicePart v 2 1) f) p (fun v => { v with step := none })) p
          | .ok b =>
            if fld b 0 2 ≠ 0 then resubmit env dp p t.draft (t.entries.take (fld b 0 2))
            else
              let dp := match (v.reqs.filter (·.running)).getLast? with
                | some r => requeue dp p r
                | none => dp
              let dp := settleService env (modService dp p (fun v => { v with step := none })) p
              formStep env dp p (servicePart v 0x29 1))

/-- DRAFT_FAILURE_RETRY (R337): the step again with CAND 0 for every entry, after a fresh KV_RESERVE. -/
def execDraftFailureRetry (p : Nat) (s : State) : Out :=
  s.work (fun env dp =>
    match dp.service p with
    | none => dp
    | some v =>
      match v.step with
      | none => dp
      | some t =>
        if !t.complete || t.status 0 ≠ stSuccess || !setsErr (t.status 1) then dp
        else resubmit env dp p false (t.entries.map (fun e => { e with new := e.new - e.cand, cand := 0 })))

end Sys2Proof.Machine
end

