-- ==== Sys2Proof/Machine/Partitions.lean ====
section
/-! DEFINITION. Partitions (R291 to R303): the plan and its checks, enable, the function drain with its hard stop, revocation
and scrubs, function-level resets, PERST_N (R408), and module-fatal faults (R18). -/

namespace Sys2Proof.Machine

/-! ### PART_CMD -/

/-- Write PART_CMD's result. -/
def partResult (dp : DataPlane) (p result : Nat) : DataPlane := dp.setRegWord 0 0x022000 (result * 2 ^ 16 + p * 2 ^ 8)

/-- A plan entry's access item: target and entry (R237, R293). -/
def aclEntryOf (b : List Byte) : AclEntry :=
  let w := fld b 0 8
  ⟨bit w 3, bit w 0, bit w 1, bit w 2, bits w 47 12, bits (fld b 8 8) 47 12⟩

/-- An access item is in range: reserved bits 0, LIMIT not below BASE in a valid entry. -/
def aclItemOk (b : List Byte) : Bool :=
  let lo := fld b 8 8
  let hi := fld b 16 8
  let e := aclEntryOf (b.drop 8)
  fld b 0 1 ≤ 2 && zeros b 1 7 && bits lo 63 48 = 0 && bits lo 11 4 = 0 && bits hi 63 48 = 0 && bits hi 11 0 = 0 &&
  (!e.v || e.base ≤ e.limit)

/-- Bits of a mask. -/
def maskBits (n : Nat) (b : List Byte) : List Nat := (List.range n).filter (fun i => bit (leNat b) i)

/-- A plan entry as read with its tables. -/
structure Plan where
  b : List Byte
  items : List (List Byte)
  masks : List (List Byte)
deriving DecidableEq, Repr

/-- Read device memory without an access check, as the hub reads a plan; none when a byte is unbacked or poisoned. -/
def planRead (dp : DataPlane) (a n : Nat) : Option (List Byte) :=
  if (pagesOf a n).all (fun pg => backed dp (max a (pg * 4096))) && (poisonedAt dp.mem a n).isNone then
    some (readBytes dp.mem.dev a n)
  else none

/-- Fields of the structure itself in range (R293). -/
def planFieldsOk (p : Nat) (b : List Byte) : Bool :=
  bits (fld b 0 24) 191 168 = 0 && (maskBits 256 ((b.drop 0x18).take 32)).length ≤ 64 && 1 ≤ fld b 0x38 2 &&
  fld b 0x38 2 ≤ (if p = 0 then 2048 else 64) && fld b 0x3A 1 ≤ 64 && fld b 0x3B 1 ≤ 64 &&
  fld b 0x3C 2 + fld b 0x3B 1 ≤ 1024 && fld b 0x3E 1 ≤ 1 && zeros b 0x3F 1 && fld b 0x40 8 < 2 ^ 48 && fld b 0x40 8 % 64 = 0 && fld b 0x48 4 ≤ 65536 &&
  fld b 0x4C 4 ≤ 192 && zeros b 0x60 32

/-- The plan that PART_ARG names; none fails check 2 of R294. -/
def readPlan (dp : DataPlane) (p : Nat) : Option Plan :=
  let hi := dp.regWord 0 0x022008
  let a := bits hi 15 0 * 2 ^ 32 + dp.regWord 0 0x022004
  if bits hi 31 16 ≠ 0 || a % 16 ≠ 0 then none
  else match planRead dp a 128 with
    | none => none
    | some b =>
      if !planFieldsOk p b then none
      else match planRead dp (fld b 0x50 8) (24 * fld b 0x4C 4), planRead dp (fld b 0x58 8) (24 * 31) with
        | some t, some m =>
          let x : Plan := ⟨b, pieces 24 (fld b 0x4C 4) t, pieces 24 31 m⟩
          if x.items.all aclItemOk && x.masks.all (fun k => bits (leNat k) 191 168 = 0) then some x else none
        | _, _ => none

def Plan.tiles (x : Plan) : List Nat := maskBits 168 (x.b.take 24)
def Plan.queues (x : Plan) : List Nat := maskBits 256 ((x.b.drop 0x18).take 32)
def Plan.acl (x : Plan) : List (Nat × AclEntry) := x.items.map (fun i => (fld i 0 1, aclEntryOf (i.drop 8)))

/-- The other enabled partitions. -/
def othersOf (dp : DataPlane) (p : Nat) : List Nat := (List.range 17).filter (fun n => n ≠ p && (dp.part n).st ≠ .disabled)

/-- Valid entries of a partition at the targets that a plan can list: those in its class's tables, and while a drain has
revoked them, those of its plan, which stays in force (R293, R297). -/
def classEntries (dp : DataPlane) (p : Nat) : List (Nat × AclEntry) :=
  (((List.range 3).flatMap (fun t => (List.range 64).map (fun i => (t, SMap.get AclEntry.none dp.mem.acl (aclKey p t i))))) ++
    (if (dp.part p).st = .scrubbing then (dp.part p).actab else [])).filter (fun x => x.2.v)

def AclEntry.changes (e : AclEntry) : Bool := e.w || e.a

/-- Entry `x` of the plan of partition `p` clashes with entry `y` of partition `n` (check 5 of R294): between tenants when
`x` grants W or A, between a tenant and partition 0 when both do. -/
def aclClash (p n : Nat) (x y : Nat × AclEntry) : Bool :=
  x.1 = y.1 && x.2.v && y.2.v && x.2.base ≤ y.2.limit && y.2.base ≤ x.2.limit &&
  (if p = 0 || n = 0 then x.2.changes && y.2.changes else x.2.changes)

/-- Ranges of fabric group numbers that meet. -/
def rangesMeet (a m b n : Nat) : Bool := 0 < m && 0 < n && a < b + n && b < a + m

/-- Check 6 of R294. -/
def planRoom (dp : DataPlane) (p : Nat) (x : Plan) : Bool :=
  let os := othersOf dp p
  fld x.b 0x3A 1 + (os.map (fun n => (dp.part n).kvpools)).foldl (· + ·) 0 ≤ 64 &&
  os.all (fun n => !rangesMeet (fld x.b 0x3C 2) (fld x.b 0x3B 1) (dp.part n).fgbase (dp.part n).fgroups) &&
  (List.range 3).all (fun t => (x.acl.filter (fun i => i.1 = t)).length ≤ 64)

/-- The RESULT of an enable (R294): the lowest-numbered check that fails. -/
def enableCheck (dp : DataPlane) (p : Nat) : Except Nat Plan :=
  if (dp.part p).st ≠ .disabled || (p ≠ 0 && !vfExists dp p) then .error 1
  else match readPlan dp p with
    | none => .error 2
    | some x =>
      let os := othersOf dp p
      if x.tiles.any (fun t => !dp.enabled t || os.any (fun n => (dp.part n).tiles.contains t)) then .error 3
      else if x.queues.any (fun q => os.any (fun n => (dp.part n).queues.contains q)) then .error 4
      else if os.any (fun n => x.acl.any (fun i => (classEntries dp n).any (aclClash p n i))) then .error 5
      else if !planRoom dp p x then .error 6
      else if x.masks.any (fun m => (maskBits 168 m).any (fun t => !x.tiles.contains t)) then .error 7
      else .ok x

/-- Write a list of entries for one target, in order. -/
def putEntries (p target : Nat) (es : List AclEntry) (m : SMap AclEntry) : SMap AclEntry :=
  (es.zipIdx).foldl (fun m e => SMap.set AclEntry.none m (aclKey p target e.2) e.1) m

/-- Full rights over one tile store window. -/
def windowEntry (t : Nat) : AclEntry := ⟨true, true, true, true, tileBase t / 4096, (tileBase t + tileWindow - 1) / 4096⟩

/-- Write a partition's entries into the tables of its class (R295). -/
def grantPlan (dp : DataPlane) (p : Nat) : DataPlane :=
  let x := dp.part p
  let m := (List.range 3).foldl (fun m t => putEntries p t ((x.actab.filter (fun i => i.1 = t)).map (·.2)) m) dp.mem.acl
  let m := x.tiles.foldl (fun m t => putEntries p (4 + t) [windowEntry t] m) m
  { dp with mem := { dp.mem with acl := m } }

/-- Zero a partition's launch events (R273). -/
def clearEvents (dp : DataPlane) (p : Nat) : DataPlane := { dp with events := SMap.clear dp.events (p * 2048) (p * 2048 + 2048) }

/-- A partition's copied plan in force (R293). -/
def planPart (old : Part) (x : Plan) : Part :=
  { old with
    st := .ready, tiles := x.tiles, queues := x.queues, msix := fld x.b 0x38 2, kvpools := fld x.b 0x3A 1,
    fgroups := fld x.b 0x3B 1, fgbase := fld x.b 0x3C 2, scrubHbm := bit (fld x.b 0x3E 1) 0, rtab := fld x.b 0x40 8,
    rtlen := fld x.b 0x48 4, actab := x.acl, tgtab := x.masks.map (maskBits 168), drain := none }

/-- PART_ENABLE (R294, R295); a partition above 16 is ignored. -/
def execPartEnable (p : Nat) (s : State) : Out :=
  s.work (fun env dp =>
    if 16 < p || !fnExists dp 0 then dp
    else match enableCheck dp p with
      | .error r => partResult dp p r
      | .ok x =>
        let dp := (partResult dp p 0).setPart p (planPart (dp.part p) x)
        openRecord env.plumb (clearEvents (grantPlan (attributeNow env dp) p) p) p)

/-! ### The drain -/

/-- Steps 1 to 4 of R297: queues close, queue pairs fail, associations close, the key table shrinks to 0, and the service
stops without egress entries (R332). -/
def beginDrain (env : Env) (dp : DataPlane) (p : Nat) (d : Drain) : DataPlane :=
  let dp := dp.setPart p { dp.part p with st := .draining, drain := some d, engFail := 0 }
  let dp := (dp.part p).queues.foldl (fun dp q =>
    if (dp.queue q).st = .disabled || (dp.queue q).st = .closing then dp else closeQueue env dp q) dp
  let mine := dp.net.qps.filterMap (fun x => match x.2 with
    | some y => if y.part = p then some x.1 else none
    | none => none)
  let dp := mine.foldl failQp dp
  let dp := dp.setNet { dp.net with
    assocs := dp.net.assocs.filter (fun x => match x.2 with
      | some a => a.part ≠ p
      | none => false) }
  let hi := dp.regWord p 0x4034
  (dp.setRegWord p 0x4034 (hi - bits hi 28 16 * 2 ^ 16)).setService p none

/-- Start a drain, or join the one in progress (R296, R301). -/
def startDrain (env : Env) (dp : DataPlane) (p : Nat) (disable : Bool) (escalated : List Nat) : DataPlane :=
  match (dp.part p).st, (dp.part p).drain with
  | .disabled, _ => dp
  | .ready, _ => beginDrain env dp p ⟨disable, false, [], escalated, []⟩
  | _, some d => dp.setPart p { dp.part p with drain := some { d with disable := d.disable || disable, escalated := d.escalated ++ escalated } }
  | _, none => dp

/-- DISABLE and DRAIN (R296, R297): accepted in READY, DRAINING and SCRUBBING. -/
def drainCommand (env : Env) (dp : DataPlane) (p : Nat) (disable : Bool) : DataPlane :=
  if 16 < p || !fnExists dp 0 then dp
  else if (dp.part p).st = .disabled then partResult dp p 1
  else startDrain env (partResult dp p 0) p disable []

/-- PART_DISABLE. -/
def execPartDisable (p : Nat) (s : State) : Out := s.work (fun env dp => drainCommand env dp p true)

/-- PART_DRAIN. -/
def execPartDrain (p : Nat) (s : State) : Out := s.work (fun env dp => drainCommand env dp p false)

/-- Drain and disable every tenant, whose VFs go away (R296). -/
def removeVfs (env : Env) (dp : DataPlane) : DataPlane :=
  (List.range 16).foldl (fun dp n => startDrain env dp (n + 1) true []) { dp with vfEnable := false, numVfs := 0 }

/-- The effect of a function-level reset (R296, R408, R447). -/
def functionReset (s : State) (fn : Nat) : State :=
  if fn = 0 then
    let s := s.endPf0Sessions
    if s.env.serving then s.setDp (removeVfs s.env (startDrain s.env s.dp 0 false []))
    else s.setDp { s.dp with vfEnable := false, numVfs := 0 }
  else if s.env.serving then s.setDp (startDrain s.env s.dp fn false []) else s

/-- FUNCTION_LEVEL_RESET (R296). -/
def execFunctionLevelReset (fn : Nat) (s : State) : Out :=
  s.hub (fun s => if fnExists s.dp fn then functionReset s fn else s)

/-- VF_ENABLE_CLEAR (R296). -/
def execVfEnableClear (s : State) : Out :=
  s.hub (fun s =>
    if s.dp.pcieDown then s
    else if s.env.serving then s.setDp (removeVfs s.env s.dp)
    else s.setDp { s.dp with vfEnable := false, numVfs := 0 })

/-- PERST_N_ASSERT (R408, R447): the PCIe link goes down. -/
def execPerstNAssert (s : State) : Out :=
  let s := s.endPf0Sessions
  .next { s with mg := { s.mg with pins := { s.mg.pins with perstN := true } }, dp := { s.dp with pcieDown := true } }

/-- PERST_N_DEASSERT (R408): the link is back, and the effect of a function-level reset of PF0 is applied. -/
def execPerstNDeassert (s : State) : Out :=
  if s.mg.pins.perstN then
    let s := { s with mg := { s.mg with pins := { s.mg.pins with perstN := false } }, dp := { s.dp with pcieDown := false } }
    .next (if s.awake then functionReset s 0 else s)
  else .next s

/-- DESTROY_ESCALATION (R289): engines that have not acknowledged within 10 ms get byte 3, and the partition drains. -/
def execDestroyEscalation (q : Nat) (s : State) : Out :=
  s.work (fun env dp =>
    let x := dp.queue q
    let late := (dp.ofQueue q).filter (fun l => !settled dp l && !dp.collector.contains (l.q, l.seq, 2))
    if x.st ≠ .closing || x.escalated || (dp.part x.fn).st ≠ .ready || late.isEmpty then dp
    else
      let tiles := late.flatMap (tilesHeld dp)
      let x := if tiles.isEmpty then x else x.mark 0 3
      let x := if tiles.any (fun t => (dp.tile t).dmaBusy) then x.mark 1 3 else x
      let x := (late.filter (fun l => l.type = .hub)).foldl (fun x l => x.mark (groupByte l.group) 3) x
      startDrain env (dp.setQueue q { x with escalated := true }) x.fn false [q])

/-! ### Hard stop (R298) -/

/-- Engines of a tile with work. -/
def busyEngines (x : Tile) : Nat :=
  ((List.range 9).filter (fun e => (x.engine e).run.isSome || !(x.engine e).queue.isEmpty)).length

/-- What an engine leaves that is stopped without waiting for its preemption point (R298): a COPY, any of the pieces that
it still had to write; a region operation, its sequence in progress cut after any of its steps; any other instruction,
undefined data in what it was writing (R91, R287). -/
def cutWork (env : Env) (dp : DataPlane) (t e : Nat) (r : Running) : DataPlane :=
  if e = 0 then (regionFinish env t (freeCount dp.free 0 allSequences) { dp with free := dp.free + 1 } r).1
  else if 7 ≤ e then (r.reach t r.writes.length dp).1
  else dp.undefine t r.undef

/-- Discard a tile's work at once (R298). -/
def hardStopTile (env : Env) (dp : DataPlane) (t : Nat) : DataPlane :=
  let dp := (List.range 9).foldl (fun dp e =>
    let dp := match ((dp.tile t).engine e).run with
      | some r => cutWork env dp t e r
      | none => dp
    dp.setTile t ((dp.tile t).setEngine e Engine.init)) dp
  let x := (dp.tile t).stopCores
  let dp := dp.setTile t { x with phase := if x.phase = .idle then .idle else .stopped, patchBlocks := [] }
  { dp with remoteOut := dp.remoteOut.filter (fun r => !r.owner.ofTile t) }

/-- Discard what a hub engine holds for a record. -/
def hardStopHub (dp : DataPlane) (l : Launch) : DataPlane :=
  let dp := dropOp (dropHub (dp.modLaunch l.q l.seq (fun y => { y with stage := .engine })) l.q l.seq) l.q l.seq
  hubEnd dp l.q l.seq (some stAborted)

/-- Records of a partition at a hub engine that has not acknowledged. -/
def hubLate (dp : DataPlane) (p : Nat) : List Launch :=
  dp.launches.filter (fun l => l.part = p && l.type = .hub && (l.stage = .engine || l.stage = .stopping) &&
    !dp.collector.contains (l.q, l.seq, 2))

/-- DRAIN_HARD_STOP (R297, R298): at 10 ms; ENG_FAIL counts the engines hard-stopped. -/
def execDrainHardStop (p : Nat) (s : State) : Out :=
  s.work (fun env dp =>
    match (dp.part p).st, (dp.part p).drain with
    | .draining, some d =>
      if d.hardStopped then dp
      else
        let tiles := (dp.part p).tiles.filter (fun t => (dp.tile t).phase ≠ .idle && (dp.tile t).phase ≠ .stopped)
        let hubs := hubLate dp p
        let n := tiles.foldl (fun n t => n + busyEngines (dp.tile t)) 0 + (hubs.map (·.group)).eraseDups.length
        let dp := hubs.foldl hardStopHub (tiles.foldl (hardStopTile env) dp)
        dp.setPart p { dp.part p with
          engFail := min n 255, drain := some { d with hardStopped := true, unconfirmed := hubs.map (·.group) } }
    | _, _ => dp)

/-! ### Module-fatal faults (R18) -/

/-- All in-flight work completes with DEVICE_FATAL, FAULT_N asserts, and nothing further is served. -/
def deviceFatal (s : State) : State :=
  let dp := s.dp.launches.foldl (fun dp l => complete s.env dp l stDeviceFatal) s.dp
  (s.setDp { dp with fatal := true }).faultPin

/-- D2D_PORT_FAILURE (R18): a die-to-die port, 0 to 2, cannot hold its lane set or fails retry during operation. -/
def execD2dPortFailure (port : Nat) (s : State) : Out := s.hub (fun s => if port < 3 then deviceFatal s else s)

/-- HARD_STOP_TIMEOUT (R298): a hub engine does not confirm a hard stop within 1 ms. -/
def execHardStopTimeout (p : Nat) (s : State) : Out :=
  s.hub (fun s => match (s.dp.part p).drain with
    | some d => if d.unconfirmed.isEmpty then s else deviceFatal s
    | none => s)

/-! ### Revocation and scrubs (R297 to R300) -/

/-- Scrub a tile (R299): its store and everything a program left in it; firmware regions stay. -/
def scrubTile (dp : DataPlane) (t : Nat) : DataPlane :=
  let cores := (dp.tile t).cores.foldl (fun m c =>
    SMap.set Core.init m c.1 { Core.init with mem := SMap.clear c.2.mem programOff (2 ^ 40) }) []
  let x := { Tile.init with cores := cores }
  { dp.setTile t x with mem := dp.mem.zero (tileBase t) (tileBase t + tileBacked) }

/-- Invalidate every entry of a class at every target. -/
def revokeClass (dp : DataPlane) (p : Nat) : DataPlane :=
  { dp with mem := { dp.mem with acl := SMap.clear dp.mem.acl (aclKey p 0 0) (aclKey (p + 1) 0 0) } }

/-- Reset what the partition left in the hub: queues that close without a record, events, the Patch test block, KV pools
and fabric groups (R299, R381). -/
def scrubHub (dp : DataPlane) (p : Nat) (keep : List Nat) : DataPlane :=
  let dp := (dp.part p).queues.foldl (fun dp q => if keep.contains q then dp else dp.setQueue q Queue.init) dp
  let dp := clearEvents dp p
  let mine := dp.coll.groups.filterMap (fun g => match g.2 with
    | some y => if y.part = p then some g.1 else none
    | none => none)
  let dp := { dp with
    pools := dp.pools.filter (fun k => match k.2 with
      | some y => y.part ≠ p
      | none => false)
    coll := { dp.coll with
      groups := dp.coll.groups.filter (fun g => !mine.contains g.1)
      remaps := dp.coll.remaps.filter (fun r => r.part ≠ p)
      notices := dp.coll.notices.filter (fun n => !mine.contains n.1) } }
  countExposed (dp.setPart p { dp.part p with patch := Patch.init })

/-- The end of a drain (R297, R310): the metering record closes, escalated queues get their DESTROY records (R289), and the
partition is READY with its plan's entries in force, or DISABLED. -/
def endDrain (env : Env) (dp : DataPlane) (p : Nat) (d : Drain) : DataPlane :=
  let dp := closeRecord env (if d.disable then 1 else 2) env.plumb (attributeNow env dp) p
  let dp := if d.disable then dp else openRecord env.plumb (grantPlan dp p) p
  let dp := d.escalated.foldl (fun dp q =>
    let x := dp.queue q
    (putCommandRecord env dp q stDrainEscalated 5 x.cmdCount (some (leNat (x.engBytes.map (BitVec.ofNat 8))))).setQueue q
      Queue.init) dp
  let x := dp.part p
  dp.setPart p (if d.disable then
      { Part.init with engFail := x.engFail, elogHead := x.elogHead, elogTail := x.elogTail, elogDrop := x.elogDrop, elog := x.elog }
    else { x with st := .ready, drain := none })

/-- Every engine has acknowledged for a record. -/
def acknowledged (dp : DataPlane) (l : Launch) : Bool := settled dp l || dp.collector.contains (l.q, l.seq, 2)

/-- DRAIN_REVOKE_SCRUB (R297, steps 5 to 8): after the last acknowledgement. Without an HBM scrub the drain then ends. -/
def execDrainRevokeScrub (p : Nat) (s : State) : Out :=
  s.work (fun env dp =>
    match (dp.part p).st, (dp.part p).drain with
    | .draining, some d =>
      let mine := dp.launches.filter (fun l => l.part = p)
      if !mine.all (acknowledged dp) then dp
      else
        let dp := completeAll env dp mine
        let pages := if (dp.part p).scrubHbm then writablePages dp p else []
        let dp := scrubHub (revokeClass ((dp.part p).tiles.foldl scrubTile (attributeNow env dp)) p) p d.escalated
        let d := { d with unconfirmed := [], scrub := pages }
        let dp := dp.setPart p { dp.part p with st := .scrubbing, drain := some d }
        if pages.isEmpty then endDrain env dp p d else dp
    | _, _ => dp)

/-- PARTITION_HBM_SCRUB_DONE (R300): every page that was granted W is zero. -/
def execPartitionHbmScrubDone (p : Nat) (s : State) : Out :=
  s.work (fun env dp =>
    match (dp.part p).st, (dp.part p).drain with
    | .scrubbing, some d =>
      let mem := d.scrub.foldl (fun m r => m.zero (r.1 * 4096) ((r.2 + 1) * 4096)) dp.mem
      endDrain env { dp with mem := mem } p d
    | _, _ => dp)

end Sys2Proof.Machine
end

