-- ==== Sys2Proof/Machine/Patch.lean ====
section
/-! DEFINITION. The Patch test: the BF16 reference of a sampled block (R113), the comparison (R114), and event records
(R117). -/

namespace Sys2Proof.Machine

/-- A narrow value times its scale, rounded to BF16 (R113). -/
def toBf16 (v : FVal) : FVal := decodeF layBF16 (encodeF layBF16 v)

/-- The BF16 reference operand: the shadow when there is one, read past the cache (R115, R224), else the narrow value
(R113, R189). -/
def refVal (direct rd : Nat → Byte) (op : MatOp) (sh : Slot) (o i : Nat) : FVal :=
  if sh.isShadow then elemVal direct 1 (sh.addr + o * sh.pitch) i
  else toBf16 ((op.val rd o i).mul (op.scl rd o i))

/-- The covered outputs of a block, row-major (R113). -/
def PatchBlock.outputs (b : PatchBlock) (x : MatDesc) : List (Nat × Nat) :=
  b.rows.flatMap (fun r =>
    (List.range 16).filterMap (fun c => if 16 * b.j + c < x.n then some (r, 16 * b.j + c) else none))

/-- Pairs (d, r) of a block: the unit's output and the reference (R113). -/
def PatchBlock.pairs (b : PatchBlock) (x : MatDesc) (av bv : Nat → Nat → FVal) : List (Nat × Nat) :=
  List.zip b.d (List.zipWith (fun o c =>
    outputElement true x.k (av o.1) (bv o.2) (fun _ => .fin false 1 1) (fun _ => .fin false 1 1) c x.f) (b.outputs x) b.c)

/-- Σ(d − r)² in ascending order (R114). -/
def patchE (ps : List (Nat × Nat)) : Nat := ps.foldl (fun e p => fadd e (fmul (fsub p.1 p.2) (fsub p.1 p.2))) 0

/-- Σr² in ascending order (R114). -/
def patchRef (ps : List (Nat × Nat)) : Nat := ps.foldl (fun e p => fadd e (fmul p.2 p.2)) 0

/-- NaN or infinite FP32 bits. -/
def nonFinite (c : Nat) : Bool := !(f32 c).isFin

/-- The alarm causes of R114 that hold, by code (R117). -/
def patchCauses (thresh : Nat) (ps : List (Nat × Nat)) : List Nat :=
  let e := patchE ps
  let r := patchRef ps
  (if (f32 (fmul (fmul thresh thresh) r)).lt (f32 e) then [1] else []) ++
  (if ps.any (fun p => p.1 ≠ p.2 && (nonFinite p.1 || nonFinite p.2)) then [2] else []) ++
  (if r = 0 && (f32 0).lt (f32 e) then [3] else [])

/-- The 64-byte record of R117. -/
def patchRecord (env : Env) (t cause : Nat) (ids : Nat × Nat) (b : PatchBlock) (x : MatDesc) (e r : Nat) : List Byte :=
  leBytes 1 cause ++ leBytes 1 (b2n x.sha.isShadow + 2 * b2n x.shb.isShadow) ++ leBytes 2 t ++ leBytes 2 ids.2 ++
  leBytes 2 x.a.fmtw ++ leBytes 4 ids.1 ++ leBytes 4 b.index ++ leBytes 2 b.i ++ leBytes 2 b.j ++ leBytes 4 x.k ++
  leBytes 4 e ++ leBytes 4 r ++ leBytes 8 env.plumb ++ leBytes 24 0

/-- Records of the ring: 2^n, n from 4 to 16 (R117, R118). -/
def Patch.ringLog (p : Patch) : Nat := min 16 (bits p.ringLo.toNat 3 0 + 4)

def Patch.ringBase (p : Patch) : Nat := bits p.ringLo.toNat 31 12 * 4096 + bits p.ringHi.toNat 15 0 * 2 ^ 32

/-- PCIe function of a partition (R291). -/
def partFn (p : Nat) : Nat := p

/-- The ring is full (R118). -/
def Patch.full (p : Patch) : Bool := (p.head + 1) % 2 ^ p.ringLog = p.tail % 2 ^ p.ringLog

/-- Address of the next record. A SIZE written below HEAD leaves HEAD as it is, and it wraps after the next record, which
R118 leaves open (log entry 64). -/
def Patch.slot (p : Patch) : Nat := p.ringBase + 64 * p.head

/-- Report a Patch event to the owner's log (R302). The spec lists no code for it: its STATUS is a free value (log entry
65). -/
def patchReport (env : Env) (t p cause : Nat) (ids : Nat × Nat) (at_ : Nat) (dp : DataPlane) : DataPlane :=
  { dp with parts := logOwner (LogFields.bytes
      ⟨Config.patchEventCode.toNat, 0, tileUnit t, 8 * t + 7, p, at_, env.plumb, ids.1, ids.2, cause⟩) dp.parts }

/-- Write one record to the partition's ring, or drop and count it, and report the event to the owner; an alarm may raise
its vector (R117, R302). The write is checked (R238); a refusal writes nothing. -/
def patchPut (env : Env) (t p : Nat) (cause : Nat) (ids : Nat × Nat) (bytes : List Byte) (dp : DataPlane) :
    Except EFault DataPlane := do
  let pt := (dp.part p).patch
  if !pt.full then checkAccess dp p (some t) .write pt.slot 64
  let dp := if pt.full then dp else dp.tileWrite t pt.slot bytes
  let pt1 := if pt.full then { pt with dropped := satAdd 32 pt.dropped 1 } else { pt with head := (pt.head + 1) % 2 ^ pt.ringLog }
  let pt2 := if cause = 0 then pt1 else { pt1 with alarms := satAdd 32 pt1.alarms 1 }
  let dp := patchReport env t p cause ids pt.slot (dp.setPart p { dp.part p with patch := pt2 })
  pure (if cause ≠ 0 && bit pt.ctl.toNat 15 then dp.raise (partFn p) (bits pt.ctl.toNat 21 16) else dp)

/-- Write records in order, up to the first that is refused. -/
def patchPutAll (env : Env) (t p : Nat) (ids : Nat × Nat) : List (Nat × List Byte) → DataPlane → DataPlane × Option EFault
  | [], dp => (dp, none)
  | (c, bs) :: r, dp =>
    match patchPut env t p c ids bs dp with
    | .ok dp => patchPutAll env t p ids r dp
    | .error f => (dp, some f)

/-- Check reads past the cache: the access check of a range, then its poison (R221, R222). -/
def checkDirect (dp : DataPlane) (cls t : Nat) : List (Nat × Nat) → Except EFault Unit
  | [] => .ok ()
  | (a, n) :: r => do
    checkAccess dp cls (some t) .read a n
    match poisonedAt dp.mem a n with
    | some g => throw (EFault.poison_ g)
    | none => checkDirect dp cls t r

/-- The operands of a block under test, and the checks of what the test reads: shadows past the cache, data and scales
like the matrix unit's own reads (R113 to R115, R224). -/
def patchOperands (dp : DataPlane) (t : Nat) (b : PatchBlock) : Except EFault (MatOp × MatOp) := do
  let x := matDesc b.desc
  let kv ← matRegion dp t x
  let a := addrOp x.a x.sa x.k
  let bo := match kv with
    | none => addrOp x.b x.sb x.k
    | some r => kvOp dp t r x.b x.k
  let cols := (List.range 16).filterMap (fun c => if 16 * b.j + c < x.n then some (16 * b.j + c) else none)
  let shadow := fun (sh : Slot) o => if sh.isShadow then [(sh.addr + o * sh.pitch, 2 * x.k)] else []
  let narrow := fun (sh : Slot) (op : MatOp) o => if sh.isShadow then [] else op.ranges o ++ op.scales o
  checkDirect dp (dp.cls t) t (b.rows.flatMap (shadow x.sha) ++ cols.flatMap (shadow x.shb))
  checkReads dp (dp.cls t) t (b.rows.flatMap (narrow x.sha a) ++ cols.flatMap (narrow x.shb bo))
  pure (a, bo)

/-- Outputs and references of a block under test (R113). -/
def patchPairs (dp : DataPlane) (t : Nat) (b : PatchBlock) (o : MatOp × MatOp) : List (Nat × Nat) :=
  let x := matDesc b.desc
  let rd := cachedByte dp (dp.tile t)
  b.pairs x (refVal (byteAt dp.mem.dev) rd o.1 x.sha) (refVal (byteAt dp.mem.dev) rd o.2 x.shb)

/-- The causes that a tested block records: its alarms, or 0 when a passing test is recorded too (R114, R117). -/
def patchRecords (ctl thresh : Nat) (ps : List (Nat × Nat)) : List Nat :=
  let causes := patchCauses thresh ps
  if causes.isEmpty then (if bit ctl 14 then [0] else []) else causes

/-- Finish the oldest block in progress on a tile (R114, R115). -/
def patchAudit (env : Env) (t : Nat) (dp : DataPlane) : DataPlane :=
  let tl := dp.tile t
  match tl.patchBlocks, (tl.engine 1).run with
  | b :: rest, some run =>
    let p := dp.cls t
    match patchOperands dp t b with
    | .error f => engineFail env dp t 1 7 run.entry f
    | .ok o =>
      let ps := patchPairs dp t b o
      let pt := (dp.part p).patch
      let recs := (patchRecords pt.ctl.toNat b.thresh ps).map (fun c =>
        (c, patchRecord env t c tl.launchIds b (matDesc b.desc) (patchE ps) (patchRef ps)))
      let dp := dp.setTile t { tl with patchBlocks := rest }
      let dp := dp.setPart p { dp.part p with patch := { pt with sampled := satAdd 32 pt.sampled 1 } }
      match patchPutAll env t p tl.launchIds recs dp with
      | (dp, none) => dp
      | (dp, some f) => engineFail env dp t 1 7 run.entry f
  | _, _ => dp

/-- PATCH_TEST_AUDIT (R114). -/
def execPatchTestAudit (t : Nat) (s : State) : Out := s.work (fun env dp => patchAudit env t dp)

end Sys2Proof.Machine
end

