-- ==== Sys2Proof/Machine/Registers.lean ====
section
/-! DEFINITION. The registers as the host reads and writes them (R461 to R471): what each offset of a function's BAR0
reads, writes of registers without behaviour of their own (R11, R12), the read-clear and latched counters, and the other
PCIe requests (R251). -/

namespace Sys2Proof.Machine

/-! ### What a register reads -/

/-- A 32-bit word of a byte block; bytes beyond it read 0. -/
def wordAt (bs : List Byte) (off : Nat) : Nat := fld bs off 4

/-- Two's complement of a signed 32-bit reading. -/
def signed32 (v : Int) : Nat := (v % 2 ^ 32).toNat

/-- The identity block (R467). -/
def readIdentity (s : State) (fn off : Nat) : Nat :=
  let f := s.mg.fuses
  match off with
  | 0x000 => 0x4160B000 + b2n (fn ≠ 0)
  | 0x004 => f.vendor % 2 ^ 16
  | 0x008 => f.iana % 2 ^ 32
  | 0x00C => f.prov % 2 ^ 32
  | 0x010 => f.prov / 2 ^ 32 % 2 ^ 16
  | 0x014 => b2n s.fb.cfg.valid * 2 ^ 31 + s.fb.cfg.id % 2 ^ 15
  | 0x018 => fn % 32
  | _ => 0

/-- PART_STATUS.STATE (R303 field map). -/
def PState.code : PState → Nat
  | .disabled => 0 | .ready => 1 | .draining => 2 | .scrubbing => 3

/-- PART_STATUS of a partition. -/
def partStatus (x : Part) : Nat :=
  x.engFail % 256 * 2 ^ 16 + (if x.st = .disabled then 0 else x.tiles.length % 256) * 2 ^ 8 + x.st.code

/-- The Patch test block (R118). -/
def readPatch (x : Patch) (off : Nat) : Nat :=
  match off with
  | 0x00 => x.ctl.toNat
  | 0x04 => x.thresh.toNat
  | 0x08 => x.seedLo.toNat
  | 0x0C => x.seedHi.toNat
  | 0x10 => x.ringLo.toNat
  | 0x14 => x.ringHi.toNat
  | 0x18 => x.head % 2 ^ 16 * 2 ^ 16 + x.tail % 2 ^ 16
  | 0x1C => x.sampled
  | 0x20 => x.skipped
  | 0x24 => x.alarms
  | 0x28 => x.dropped
  | _ => 0

/-- A counter of the TELEM window as a function sees it: every counter reads 0 in a VF (R456, R470). -/
def telemSeen (s : State) (fn off : Nat) : Nat := if fn = 0 then telemCounter s off else 0

/-- The TELEM window (R470): sensors, then counters, whose high words are latched (R461). -/
def readTelem (s : State) (fn off : Nat) : Nat :=
  if off < 104 then signed32 (sensorValue s (off / 4 + 1))
  else if telemOffsets.contains off then telemSeen s fn off % 2 ^ 32
  else if telemOffsets.contains (off - 4) then (SMap.get 0 s.dp.latch fn).toNat
  else 0

/-- EV of a partition (R468). -/
def readEvent (dp : DataPlane) (p e : Nat) : Nat :=
  let x := SMap.get Event.init dp.events (evKey p e)
  b2n x.err * 2 ^ 31 + x.count

/-- QDB_STATE.STATE (R266). -/
def QState.code : QState → Nat
  | .disabled => 0 | .active => 1 | .aborting => 2 | .closing => 3 | .error => 4

/-- A doorbell page (R266). -/
def readDoorbell (dp : DataPlane) (q off : Nat) : Nat :=
  let x := dp.queue q
  match off with
  | 0x4 => x.cqhead
  | 0x8 => x.head
  | 0xC => (dp.ofQueue q).length % 2 ^ 17 * 2 ^ 8 + b2n x.rung * 2 ^ 3 + x.st.code
  | _ => 0

/-- Insert into an ascending list. -/
def insertAsc (x : Nat) : List Nat → List Nat
  | [] => [x]
  | y :: r => if x ≤ y then x :: y :: r else y :: insertAsc x r

/-- The queue of a doorbell page: in PF0 by number, in a VF the page-th lowest of its partition (R464, R466). -/
def pageQueue (dp : DataPlane) (fn page : Nat) : Option Nat :=
  if fn = 0 then (if page < 256 then some page else none)
  else if (dp.part fn).st = .disabled then none
  else ((dp.part fn).queues.foldr insertAsc [])[page]?

/-- Offset of the doorbell pages. -/
def doorbells (fn : Nat) : Nat := if fn = 0 then 0x100000 else 0x40000

/-- Size of the MSI-X table (R463, R464). -/
def msixSize (fn : Nat) : Nat := if fn = 0 then 0x8000 else 0x400

/-- A word of the MSI-X table. The Mask bit of a vector's control word is 1 at reset (log entry 12), so that word is kept
as its difference from 1. -/
def msixWord (v off : Nat) : Nat := if off % 16 = 12 then (if v = 0 then 1 else 0) else v

/-- JLINK_STATUS (R378). -/
def linkStatus (x : Link) : Nat :=
  x.nbr % 2 ^ 15 * 2 ^ 16 + x.rlink % 8 * 2 ^ 13 + b2n x.detour * 2 ^ 12 + b2n x.strong * 2 ^ 11 + x.width % 4 * 2 ^ 9 +
  x.lgrp % 4 * 2 ^ 7 + x.disc % 8 * 2 ^ 4 + x.st.code

/-- PLUMB_STATUS.SOURCE (R378). -/
def PlumbSrc.code : PlumbSrc → Nat
  | .free => 0 | .tod => 1 | .tree => 2 | .holdover => 3

/-- PLUMB_STATUS (R378). OFFSET saturates. -/
def plumbStatus (x : Plumb) : Nat :=
  x.depth % 256 * 2 ^ 24 + x.parent % 8 * 2 ^ 20 + x.source.code * 2 ^ 18 + b2n x.gm * 2 ^ 17 + b2n x.aligned * 2 ^ 16 +
  (clampI (-32768) 32767 x.offset % 2 ^ 16).toNat

/-- MODE_STATUS (R454). -/
def modeStatus (x : Security) : Nat :=
  x.mode.pcap / 25 % 256 * 2 ^ 24 + x.mode.rmax % 16 * 2 ^ 20 + x.mode.rmin % 16 * 2 ^ 16 + x.mode.fec % 2 * 2 ^ 4 +
  x.mode.ecc % 2 * 2 ^ 3 + x.eccNow % 2 * 2 ^ 2 + x.mode.clock % 4

/-- Queue pairs that a partition holds (R471). -/
def heldPairs (dp : DataPlane) (p : Nat) : Nat :=
  (dp.net.qps.filter (fun c => match c.2 with
    | some x => x.part = p
    | none => false)).length

/-- The owner blocks of PF0 (R464). -/
def readOwner (s : State) (off : Nat) : Nat :=
  let dp := s.dp
  if off = 0x20000 then bootStatus s.mg.boot
  else if off = 0x20004 then s.mg.boot.unit % 2 ^ 16 * 2 ^ 16 + s.mg.boot.cause % 2 ^ 8
  else if off = 0x20008 then s.mg.boot.timeMs
  else if off = 0x2000C then modeStatus s.mg.sec
  else if 0x22100 ≤ off && off < 0x22144 then partStatus (dp.part ((off - 0x22100) / 4))
  else if off = 0x22200 then b2n dp.mem.syncBusy * 2
  else if 0x22300 ≤ off && off < 0x22344 then
    heldPairs dp ((off - 0x22300) / 4) % 2 ^ 11 * 2 ^ 16 + dp.regWord 0 off
  else if 0x23000 ≤ off && off < 0x23018 then linkStatus (s.fb.link ((off - 0x23000) / 4))
  else if off = 0x23020 then plumbStatus s.fb.plumb
  else if off = 0x2302C then s.fb.tau % 2 ^ 32
  else if off = 0x24000 then dp.meter.interval
  else if 0x100000 ≤ off && off < 0x200000 then readDoorbell dp ((off - 0x100000) / 0x1000) (off % 0x1000)
  else dp.regWord 0 off

/-- What an aligned 32-bit read of a decoded offset returns (R461 to R471). Registers without a home of their own are in
`dp.regs`, where an offset that nothing writes reads 0. -/
def readReg (s : State) (fn off : Nat) : Nat :=
  let dp := s.dp
  let p := dp.part fn
  if off < 0x1000 then readIdentity s fn off
  else if off = 0x1000 then partStatus p
  else if off = 0x1004 then meterStatus s.env dp fn
  else if off = 0x1008 then SMap.get 0 dp.meter.sel fn
  else if 0x3000 ≤ off && off < 0x4000 then
    wordAt (SMap.get [] s.mg.sec.win (if fn = 0 then 0 else fn + 2)) (off - 0x3000)
  else if 0x5000 ≤ off && off < 0x6000 then readPatch p.patch (off - 0x5000)
  else if off = 0x6000 then p.elogHead * 2 ^ 16 + p.elogTail
  else if off = 0x6004 then p.elogDrop
  else if 0x8000 ≤ off && off < 0xA000 then wordAt (SMap.get [] p.elog ((off - 0x8000) / 32)) (off % 32)
  else if 0xA000 ≤ off && off < 0xC000 then readTelem s fn (off - 0xA000)
  else if 0xC000 ≤ off && off < 0xE000 then readEvent dp fn ((off - 0xC000) / 4)
  else if 0xF000 ≤ off && off < 0xF800 then wordAt (meterWindow dp.meter fn) (off - 0xF000)
  else if 0x10000 ≤ off && off < 0x10000 + msixSize fn then msixWord (dp.regWord fn off) off
  else if fn = 0 then readOwner s off
  else if 0x40000 ≤ off && off < 0x80000 then
    match pageQueue dp fn ((off - 0x40000) / 0x1000) with
    | some q => readDoorbell dp q (off % 0x1000)
    | none => 0
  else dp.regWord fn off

/-- The answer to a read: a width or alignment other than an aligned 32 bits returns all ones, and a block that is not
decoded reads 0 (R420, R461). -/
def barRead (s : State) (fn off width : Nat) : List Byte :=
  if width ≠ 4 || off % 4 ≠ 0 then List.replicate width 0xFF
  else if barDecodes s fn off then leBytes 4 (readReg s fn off) else leBytes 4 0

/-- Send a completion on the PCIe link. -/
def State.answer (s : State) (c : Completion) : State := s.setDp { s.dp with cpl := some c }

/-! ### Counters -/

/-- Clear the RC counter at an offset (R118, R469); `none` where no RC counter lies. -/
def clearCounter (x : Part) (off : Nat) : Option Part :=
  match off with
  | 0x501C => some { x with patch := { x.patch with sampled := 0 } }
  | 0x5020 => some { x with patch := { x.patch with skipped := 0 } }
  | 0x5024 => some { x with patch := { x.patch with alarms := 0 } }
  | 0x5028 => some { x with patch := { x.patch with dropped := 0 } }
  | 0x6004 => some { x with elogDrop := 0 }
  | _ => none

/-- COUNTER_READ_CLEAR (R11): an aligned 32-bit read of an RC counter of the function's partition returns and clears it.
A block that is not decoded reads 0 and keeps its counter (R420). -/
def execCounterReadClear (fn off : Nat) (s : State) : Out :=
  s.hub (fun s =>
    match clearCounter (s.dp.part fn) off with
    | none => s
    | some x =>
      if !fnExists s.dp fn then s
      else
        let t := s.answer (.data (barRead s fn off 4))
        if barDecodes s fn off then t.setDp (t.dp.setPart fn x) else t)

/-- COUNTER_LOW_WORD_READ (R461): a read of the low word of a 64-bit counter latches its high word for the function. -/
def execCounterLowWordRead (fn off : Nat) (s : State) : Out :=
  s.hub (fun s =>
    if fnExists s.dp fn && 0xA000 ≤ off && telemOffsets.contains (off - 0xA000) then
      let t := s.answer (.data (barRead s fn off 4))
      if barDecodes s fn off then
        let high := BitVec.ofNat 32 (telemSeen s fn (off - 0xA000) / 2 ^ 32)
        t.setDp { t.dp with latch := SMap.set 0 t.dp.latch fn high }
      else t
    else s)

/-! ### Writes -/

/-- Keep the listed fields, as (high, low) bits (R12). -/
def keepBits (v : Nat) : List (Nat × Nat) → Nat
  | [] => 0
  | (hi, lo) :: r => bits v hi lo * 2 ^ lo + keepBits v r

/-- Write a Patch test register (R118). -/
def writePatch (x : Patch) (off : Nat) (v : U32) : Patch :=
  let w := v.toNat
  match off with
  | 0x00 => { x with ctl := BitVec.ofNat 32 (keepBits w [(21, 16), (15, 15), (14, 14), (13, 8), (0, 0)] + min (bits w 7 4) 6 * 2 ^ 4) }
  | 0x04 => { x with thresh := v }
  | 0x08 => { x with seedLo := v }
  | 0x0C => { x with seedHi := v }
  | 0x10 => { x with ringLo := BitVec.ofNat 32 (keepBits w [(31, 12), (3, 0)]) }
  | 0x14 => { x with ringHi := BitVec.ofNat 32 (bits w 15 0) }
  | 0x18 => { x with tail := bits w 15 0 }
  | _ => x

/-- The fields of PF0's own registers that a write sets (R316, R354, R378, R417, R465, R471): what the register then
holds; `none` where no such register lies. -/
def ownerField (dp : DataPlane) (off w : Nat) : Option Nat :=
  if off = 0x21004 then some w
  else if off = 0x22000 then
    if bits w 2 0 = 0 || 4 ≤ bits w 2 0 then some (bits (dp.regWord 0 off) 23 16 * 2 ^ 16 + bits w 12 8 * 2 ^ 8) else none
  else if off = 0x22004 then some w
  else if off = 0x22008 then some (bits w 15 0)
  else if 0x22300 ≤ off && off < 0x22344 then some (bits w 10 0)
  else if off = 0x23024 then some (keepBits w [(31, 16), (0, 0)])
  else if off = 0x23028 then some (max 100 (min (bits w 29 16) 10000) * 2 ^ 16 + max 100 (min (bits w 13 0) 10000))
  else if off = 0x23030 then some (bits w 19 0)
  else if off = 0x25000 || off = 0x25008 then some (keepBits w [(31, 4)])
  else if 0x30000 ≤ off && off < 0x40000 then some w
  else none

/-- The fields of a function's registers in `dp.regs` that a write sets (R285, R317, R332, R471). The QUEUE field of a
command register is set by a write whose OP is none of its commands. -/
def functionField (dp : DataPlane) (fn off w : Nat) : Option Nat :=
  if off = 0x4000 || off = 0x4010 || off = 0x4020 then
    if bits w 2 0 = 0 || 4 ≤ bits w 2 0 then some (bits (dp.regWord fn off) 23 16 * 2 ^ 16 + bits w 15 8 * 2 ^ 8) else none
  else if off = 0x4004 || off = 0x4008 || off = 0x4014 || off = 0x4018 || off = 0x4024 || off = 0x4028 then some w
  else if off = 0x4030 then some (keepBits w [(31, 4)])
  else if off = 0x4034 then some (bits w 28 0)
  else if 0x10000 ≤ off && off < 0x10000 + msixSize fn then
    some (if off % 16 = 12 then 1 - bits w 0 0 else if off % 16 = 0 then keepBits w [(31, 2)] else w)
  else if fn = 0 then ownerField dp off w
  else none

/-- Put a 32-bit word into a byte block, which grows with zeros as needed. -/
def putWord (bs : List Byte) (off w : Nat) : List Byte :=
  (bs ++ List.replicate (off - bs.length) 0).take off ++ leBytes 4 w ++ bs.drop (off + 4)

/-- A write to a register without behaviour of its own (R11, R12), or to the MSI-X table, whose Mask bit holds a vector's
messages back until it clears (R463); every other write is ignored or has its own command. -/
def writeReg (s : State) (fn off : Nat) (v : U32) : State :=
  let dp := s.dp
  let p := dp.part fn
  if 0x3000 ≤ off && off < 0x4000 then
    let i := if fn = 0 then 0 else fn + 2
    s.setSec { s.mg.sec with win := SMap.modify [] s.mg.sec.win i (fun bs => putWord bs (off - 0x3000) v.toNat) }
  else if 0x5000 ≤ off && off < 0x6000 then s.setDp (dp.setPart fn { p with patch := writePatch p.patch (off - 0x5000) v })
  else if off = 0x6000 then s.setDp (dp.setPart fn { p with elogTail := bits v.toNat 7 0 })
  else if fn = 0 && off = 0x24000 then s.setDp (dp.setMeter { dp.meter with interval := bits v.toNat 5 0 })
  else match functionField dp fn off v.toNat with
    | some w =>
      let dp := dp.setRegWord fn off w
      s.setDp (if 0x10000 ≤ off && off < 0x10000 + msixSize fn && off % 16 = 12 then dp.unmask fn ((off - 0x10000) / 16) else dp)
    | none => s

/-- A write to the SR-IOV capability's control, which only PF0 has (R291, R420; its offsets: log entry 12). VF Enable takes a
1 in a READY state only; clearing it is VF_ENABLE_CLEAR. NumVFs is written while VF Enable is 0. -/
def writeSriov (s : State) (off : Nat) (v : U32) : State :=
  if off = 0x8 then (if s.env.serving && bit v.toNat 0 then s.setDp { s.dp with vfEnable := true } else s)
  else if off = 0x10 then (if s.dp.vfEnable then s else s.setDp { s.dp with numVfs := min 16 (bits v.toNat 15 0) })
  else s

/-- REGISTER_WRITE (R11, R461): in BAR0 a write of any width or alignment but an aligned 32 bits is ignored. -/
def execRegisterWrite (sp : RegSpace) (fn off width : Nat) (v : U32) (s : State) : Out :=
  s.hub (fun s =>
    match sp with
    | .bar0 => if width = 4 && off % 4 = 0 && barDecodes s fn off then writeReg s fn off v else s
    | .sriov => if fn = 0 && fnExists s.dp 0 then writeSriov s off v else s)

/-! ### Other PCIe requests -/

/-- Master ID of PF0 (R235). -/
def pf0Master : Nat := 0x700

/-- PF_BAR2_DEBUG_WINDOW_ACCESS (R246, R251): a read or write of device memory at its point of coherence in PF0's class
(R236, R238); a refusal is reported (R240) and moves no data. Bytes of a poisoned granule are not stated and read as free
values (R221). -/
def execPfBar2DebugWindowAccess (addr len : Nat) (wdata : Option (List Byte)) (s : State) : Out :=
  s.work (fun env dp =>
    if dp.pcieDown then dp
    else
      let kind : AccessKind := if wdata.isSome then .write else .read
      let n := match wdata with
        | some bs => bs.length
        | none => len
      match accessCheck dp 0 none kind addr n with
      | some (r, a) =>
        let dp := { dp with parts := logFault env 0 pf0Master 0 0 0xFFFF 1 0 (EFault.access_ r kind a) dp.parts }
        if wdata.isSome then dp else { dp with cpl := some .refused }
      | none =>
        match wdata with
        | some bs =>
          let dp := { dp with mem := dp.mem.write addr bs }
          dp.addUsage 0 (fun u => { u with hbmWr := u.hbmWr + hbmBytes addr bs.length })
        | none =>
          let bad := (poisonedAt dp.mem addr len).isSome
          let bs := if bad then freshBytes dp.free len else readBytes dp.mem.dev addr len
          let dp := { dp with free := dp.free + b2n bad * len, cpl := some (.data bs) }
          dp.addUsage 0 (fun u => { u with hbmRd := u.hbmRd + hbmBytes addr len }))

/-- PCIE_ATOMICOP_REQUEST (R251): refused with Unsupported Request; no location changes. -/
def execPcieAtomicopRequest (fn _addr : Nat) (s : State) : Out :=
  s.hub (fun s => if fnExists s.dp fn then s.answer .unsupported else s)

end Sys2Proof.Machine
end

