-- ==== Sys2Proof/Machine/Sfu.lean ====
section
/-! DEFINITION. The special function unit: reductions (R127), segment choice (R128), evaluation (R129, R130), built-in
functions (R131 to R133), Reloa compatibility (R149, R150), user tables with their loader's checks (R135 to R139). -/

namespace Sys2Proof.Machine

/-- Reductions of R127; MANT2 serves RSQRT (k = −h) and SQRT (k = h). -/
inductive Reduction where
  | none | frac | mant1 | rsqrt | sqrt | logr
deriving DecidableEq, Repr

/-- A tail's constants, as FP32 bits (R129). -/
structure Tail where
  t0 : Nat
  t1 : Nat
deriving DecidableEq, Repr

/-- A function as the unit evaluates it: its reduction, segment bits, binade bounds, tails and entries by side. -/
structure SfuFn where
  red : Reduction
  s : Nat
  emin : Nat → Int
  emax : Nat → Int
  low : Nat → Tail
  high : Nat → Tail
  entry : Nat → Int → Nat → Int × Int × Int × Int
  odd : Bool
  even : Bool

/-- A reduced argument: u = n/d ≥ 0, scale exponent k, addend a, side (R127). -/
structure Reduced where
  n : Nat
  d : Nat
  k : Int
  a : Int
  side : Nat
deriving DecidableEq, Repr

/-- ⌊log2⌋ of a positive finite magnitude; 0 for 0. -/
def binade (n d : Nat) : Int := if n = 0 then 0 else floorLog2 n d

/-- Divide a magnitude by 2^k. -/
def unscale (n d : Nat) (k : Int) : Nat × Nat :=
  if 0 ≤ k then (n, d * 2 ^ k.toNat) else (n * 2 ^ (-k).toNat, d)

/-- Reduce a finite input (R127). -/
def sfuReduce (f : SfuFn) (neg : Bool) (n d : Nat) : Reduced :=
  match f.red with
  | .none => ⟨n, d, 0, 0, if f.odd || f.even then 0 else b2n neg⟩
  | .frac =>
    let fl : Int := (if neg then -(n : Int) else n) / (d : Int)
    let u := (if neg then -(n : Int) else (n : Int)) - fl * d
    ⟨u.toNat, d, fl, 0, 0⟩
  | .mant1 =>
    let e := binade n d
    let m := unscale n d e
    ⟨m.1, m.2, -e, 0, 0⟩
  | .rsqrt =>
    let h := binade n d / 2
    let m := unscale n d (2 * h)
    ⟨m.1, m.2, -h, 0, 0⟩
  | .sqrt =>
    let h := binade n d / 2
    let m := unscale n d (2 * h)
    ⟨m.1, m.2, h, 0, 0⟩
  | .logr =>
    let e := binade n d
    let m := unscale n d e
    if 2 * m.1 < 3 * m.2 then ⟨m.1 - m.2, m.2, 0, e, 0⟩
    else ⟨2 * m.2 - m.1, 2 * m.2, 0, e + 1, 1⟩

/-- A tail's value (R129): (T0 + T1 · u) · 2^k + a. -/
def tailVal (t : Tail) (r : Reduced) : FVal :=
  (((f32 t.t0).add ((f32 t.t1).mul (.fin false r.n r.d))).scale2 r.k).add (FVal.ofInt r.a)

/-- The bits of a tail's result; an exact zero takes the bits of T0 when T1 is 0, and is +0 otherwise (R130). -/
def tailBits (t : Tail) (r : Reduced) : Nat :=
  let v := tailVal t r
  if v.isZero then (if (f32 t.t1).isZero then t.t0 else 0) else toF32 v

/-- The 23 fraction bits of u in binade e (R128); a fraction of more bits is cut (log entry 9). -/
def fracBits (n d : Nat) (e : Int) : Nat :=
  let m := unscale n d e
  (m.1 - m.2) * 2 ^ 23 / m.2

/-- FP32 bits of an exact value, an exact zero being +0 (R130). -/
def sfuRound (v : FVal) : Nat := if v.isZero then 0 else toF32 v

/-- The segment part of R129, or its two roundings in Reloa mode (R150). -/
def segBits (reloa : Bool) (f : SfuFn) (r : Reduced) (e : Int) : Nat :=
  let fr := fracBits r.n r.d e
  let j := fr / 2 ^ (23 - f.s)
  let dd : Int := (fr % 2 ^ (23 - f.s)) * 2 ^ (f.s + 1)
  let (c0, c1, c2, q) := f.entry r.side e j
  let lin := (FVal.ofInt (c0 * 2 ^ 48 + c1 * dd * 2 ^ 24)).scale2 (q - 48 + r.k)
  let quad := (FVal.ofInt (c2 * dd * dd)).scale2 (q - 48 + r.k)
  if reloa then sfuRound ((f32 (sfuRound (lin.add (FVal.ofInt r.a)))).add quad)
  else sfuRound ((lin.add quad).add (FVal.ofInt r.a))

/-- Negate FP32 bits, keeping a NaN canonical. -/
def negBits (c : Nat) : Nat := toF32 (f32 c).neg

/-- Evaluate a function at FP32 bits that its special-value table does not list (R129, R130). MANT1 applies the sign
of the input to the result (R127). -/
def sfuEval (reloa : Bool) (f : SfuFn) (x : Nat) : Nat :=
  match f32 x with
  | .nan => f32Nan
  | .inf neg =>
    let t := f.high (if f.odd || f.even then 0 else b2n neg)
    let r := if (f32 t.t1).isZero then t.t0 else (if (f32 t.t1).isNeg then f32NegInf else f32PosInf)
    if f.odd && neg then negBits r else r
  | .fin neg n d =>
    let r := sfuReduce f neg n d
    let e := binade r.n r.d
    let b :=
      if r.n = 0 || e < f.emin r.side then tailBits (f.low r.side) r
      else if f.emax r.side < e then tailBits (f.high r.side) r
      else segBits reloa f r e
    if (f.odd && neg && n ≠ 0) || (f.red = .mant1 && neg) then negBits b else b

/-! ### Built-in functions -/

def tl (t0 t1 : Nat) : Tail := ⟨t0, t1⟩
/-- Constants of R132. -/
def cL : Nat := 0x3FB8AA3B
def cZ : Nat := 0x3F317218
def cG : Nat := 0x3F906EBA
def cHalf : Nat := 0x3F000000
def cNegHalf : Nat := 0xBF000000

/-- Segment bits of a built-in function (R131); 4 for every function in Reloa mode (R150). -/
def builtinS (code : Nat) : Nat := if code = 4 || code = 7 || code = 11 then 5 else 6

def builtinRed (code : Nat) : Reduction :=
  if code = 0 then .frac else if code = 1 then .logr else if code = 2 then .mant1 else if code = 3 then .rsqrt
  else if code = 4 then .sqrt else .none

def builtinEmin (code : Nat) : Int := if 2 ≤ code && code ≤ 4 then 0 else -24

def builtinEmax (code : Nat) : Int :=
  ([-1, -2, 0, 1, 1, 6, 3, 1, 3, 3, 6, 6] : List Int).getD code 0

/-- Low tails of R132, by side. -/
def builtinLow (code side : Nat) : Tail :=
  if code = 0 then tl f32One 0
  else if code = 1 then tl 0 (if side = 0 then cL else 0xBFB8AA3B)
  else if code = 5 then tl cHalf (if side = 0 then 0x3E800000 else 0xBE800000)
  else if code = 6 then tl 0 f32One
  else if code = 7 then tl 0 cG
  else if code = 11 then tl cZ (if side = 0 then cHalf else cNegHalf)
  else tl 0 (if side = 0 then cHalf else cNegHalf)

/-- High tails of R132, by side. -/
def builtinHigh (code side : Nat) : Tail :=
  if code = 5 then (if side = 0 then tl f32One 0 else tl 0 0)
  else if code = 6 || code = 7 then tl f32One 0
  else if code = 11 then (if side = 0 then tl 0 f32One else tl 0 0)
  else if side = 0 then tl 0 f32One else tl 0x80000000 0

/-- A built-in function; its segment values are the configuration's (R131, R150). -/
def builtinFn (reloa : Bool) (code : Nat) : SfuFn :=
  { red := builtinRed code
    s := if reloa then 4 else builtinS code
    emin := fun _ => builtinEmin code
    emax := fun _ => builtinEmax code
    low := builtinLow code
    high := builtinHigh code
    entry := fun side e j => if reloa then Config.reloaEntry code side e j else Config.sfuEntry code side e j
    odd := code = 6 || code = 7
    even := false }

/-- Special values (R133): results at −infinity, −0, +0 and +infinity. -/
def specials (code : Nat) : List Nat :=
  if code = 0 then [0, f32One, f32One, f32PosInf]
  else if code = 1 then [f32Nan, f32NegInf, f32NegInf, f32PosInf]
  else if code = 2 then [0x80000000, f32NegInf, f32PosInf, 0]
  else if code = 3 then [f32Nan, f32NegInf, f32PosInf, 0]
  else if code = 4 then [f32Nan, 0x80000000, 0, f32PosInf]
  else if code = 5 then [0, cHalf, cHalf, f32One]
  else if code = 6 || code = 7 then [0xBF800000, 0x80000000, 0, f32One]
  else if code = 11 then [0, cZ, cZ, f32PosInf]
  else [0x80000000, 0x80000000, 0, f32PosInf]

/-- The result that a built-in function has without its segments: a special value, the NaN of a negative input, or the
infinity that R133 gives the reciprocal of every subnormal (log entry 67). -/
def builtinKnown (code x : Nat) : Option Nat :=
  let sp := specials code
  match f32 x with
  | .nan => some f32Nan
  | .inf true => some (sp.getD 0 0)
  | .inf false => some (sp.getD 3 0)
  | .fin neg n _ =>
    if n = 0 then some (sp.getD (if neg then 1 else 2) 0)
    else if neg && (code = 1 || code = 3 || code = 4) then some f32Nan
    else if code = 2 && x % 2 ^ 31 < 2 ^ 23 then some (if neg then f32NegInf else f32PosInf)
    else none

/-- A built-in function at FP32 bits by its segments (R129, R133). -/
def builtinRaw (reloa : Bool) (code x : Nat) : Nat :=
  (builtinKnown code x).getD (sfuEval reloa (builtinFn reloa code) x)

/-! ### User tables -/

/-- Index of the entry of a side, binade and segment (R136). -/
def SfuTable.index (t : SfuTable) (side : Nat) (e : Int) (j : Nat) : Nat :=
  if side = 0 then (e - t.eminP).toNat * 2 ^ t.s + j
  else ((t.emaxP - t.eminP).toNat + 1) * 2 ^ t.s + (e - t.eminN).toNat * 2 ^ t.s + j

/-- A user table as the unit evaluates it (R135, R136). -/
def SfuTable.fn (t : SfuTable) : SfuFn :=
  { red := .none
    s := t.s
    emin := fun side => if side = 0 then t.eminP else t.eminN
    emax := fun side => if side = 0 then t.emaxP else t.emaxN
    low := fun side => tl (t.tails.getD (4 * side) 0) (t.tails.getD (4 * side + 1) 0)
    high := fun side => tl (t.tails.getD (4 * side + 2) 0) (t.tails.getD (4 * side + 3) 0)
    entry := fun side e j => t.entries.getD (t.index side e j) (0, 0, 0, 0)
    odd := t.sym = 1
    even := t.sym = 2 }

/-- A user table at FP32 bits. -/
def SfuTable.eval (t : SfuTable) (x : Nat) : Nat := sfuEval false t.fn x

/-- A function code that exists, and is available in the mode asked (R121, R149). -/
def funcCodeOk (reloa : Bool) (code : Nat) : Bool :=
  if reloa then [0, 2, 3, 5, 6, 9].contains code else code ≤ 11 || code = 0x10 || code = 0x11 || code = 255

/-! ### The loader -/

/-- Header checks of R137 order 1, on the 64-byte header. -/
def tableHeaderOk (h : List Byte) : Bool :=
  let sb := fun o => signedOf 8 (fld h o 1)
  let fl := fld h 3 1
  let sym := bits fl 1 0
  let mono := bits fl 3 2
  let okE := fun (lo hi : Int) => -126 ≤ lo && lo ≤ hi && hi ≤ 127
  let nans := fun o => (List.range 4).any (fun i => (f32 (fld h (o + 4 * i) 4)).isNan)
  let binades := (sb 5 - sb 4).toNat + 1 + (if sym = 0 then (sb 7 - sb 6).toNat + 1 else 0)
  fld h 0 2 = 1 && 2 ≤ fld h 2 1 && fld h 2 1 ≤ 6 && fl < 16 && sym ≤ 2 && mono ≤ 2 && okE (sb 4) (sb 5) &&
  okE (sb 6) (sb 7) && fld h 8 2 = binades * 2 ^ fld h 2 1 && fld h 8 2 ≤ 4096 && zeros h 0x0A 6 && zeros h 0x30 16 &&
  !nans 0x10 && !(sym = 0 && nans 0x20) && !(sym = 2 && mono ≠ 0)

/-- Entry `i` of a table's bytes (R135). -/
def tableEntry (b : List Byte) (i : Nat) : Int × Int × Int × Int :=
  (signedOf 32 (fld b (16 * i) 4), signedOf 32 (fld b (16 * i + 4) 4), signedOf 32 (fld b (16 * i + 8) 4),
   signedOf 8 (fld b (16 * i + 12) 1))

def tableOf (h b : List Byte) : SfuTable :=
  let sb := fun o => signedOf 8 (fld h o 1)
  { s := fld h 2 1, sym := bits (fld h 3 1) 1 0, mono := bits (fld h 3 1) 3 2, eminP := sb 4, emaxP := sb 5,
    eminN := sb 6, emaxN := sb 7, tails := (List.range 8).map (fun i => fld h (0x10 + 4 * i) 4),
    entries := (List.range (fld h 8 2)).map (tableEntry b) }

/-- A slope has the required sign: positive side increasing or negative side decreasing needs ≥ 0 (R138). -/
def slopeOk (up : Bool) (x : Int) : Bool := if up then 0 ≤ x else x ≤ 0

/-- The required direction on a side: magnitude up means value up on the positive side of an increasing table. -/
def SfuTable.up (t : SfuTable) (side : Nat) : Bool := xor (t.mono = 1) (side = 1)

/-- Entries of the positive side. -/
def SfuTable.posCount (t : SfuTable) : Nat := ((t.emaxP - t.eminP).toNat + 1) * 2 ^ t.s

/-- A load report's findings: kind, side, entry index, inputs and results (R139). -/
structure TableFail where
  kind : Nat
  side : Nat
  index : Nat
  x0 : Nat
  x1 : Nat
  y0 : Nat
  y1 : Nat
deriving DecidableEq, Repr

/-- The first segment whose slope has a wrong sign (R138). -/
def slopeFail (t : SfuTable) : Option TableFail :=
  (List.range t.entries.length).findSome? (fun i =>
    let (_, c1, c2, _) := t.entries.getD i (0, 0, 0, 0)
    let side := if i < t.posCount then 0 else 1
    if slopeOk (t.up side) c1 && slopeOk (t.up side) (c1 + 2 * c2) then none
    else some ⟨1, side, i, 0, 0, 0, 0⟩)

/-- The first tail whose slope has a wrong sign. -/
def tailFail (t : SfuTable) : Option TableFail :=
  (if t.sym = 0 then [0, 1] else [0]).findSome? (fun side => [1, 3].findSome? (fun i =>
    let v := f32 (t.tails.getD (4 * side + i) 0)
    if v.isZero || v.isNeg ≠ t.up side then none else some ⟨2, side, 0, 0, 0, 0, 0⟩))

/-- The tails of both sides are judged after every segment, positive side first (log entry 68). -/
def slopesFail (t : SfuTable) : Option TableFail :=
  match slopeFail t with
  | some f => some f
  | none => tailFail t

/-- Seams of one side by ascending magnitude: (kind, entry index, FP32 bits of the seam's upper magnitude). -/
def sideSeams (t : SfuTable) (side : Nat) : List (Nat × Nat × Nat) :=
  let f := t.fn
  let bn := (f.emax side - f.emin side).toNat + 1
  let at_ := fun (b j : Nat) => ((f.emin side + (b : Int) + 127).toNat * 2 ^ 23 + j * 2 ^ (23 - t.s))
  ((List.range bn).flatMap (fun (b : Nat) => (List.range (2 ^ t.s)).map (fun (j : Nat) =>
    (if j ≠ 0 then 3 else if b = 0 then 5 else 4, t.index side (f.emin side + (b : Int)) j, at_ b j)))) ++
  [(5, t.index side (f.emax side) (2 ^ t.s - 1), at_ bn 0)]

/-- All seams in ascending order of x: (kind, side, index, lower input, upper input). The negative side of a symmetric
table is its mirror, so that of an ODD one has a zero seam at the least negative input too (R134; log entry 68). -/
def allSeams (t : SfuTable) : List (Nat × Nat × Nat × Nat × Nat) :=
  let sd := if t.sym = 0 then 1 else 0
  ((sideSeams t sd).reverse.map (fun s => (s.1, sd, s.2.1, 2 ^ 31 + s.2.2, 2 ^ 31 + (s.2.2 - 1)))) ++
  (if t.sym = 1 then [(6, 0, 0, 0x80000001, 0x80000000)] else []) ++ [(6, 0, 0, 0x80000000, 0)] ++
  (sideSeams t 0).map (fun s => (s.1, 0, s.2.1, s.2.2 - 1, s.2.2))

/-- The first seam at which the results are out of order (R138). -/
def seamFail (t : SfuTable) : Option TableFail :=
  (allSeams t).findSome? (fun s =>
    let (kind, side, idx, a, b) := s
    let ya := t.eval a
    let yb := t.eval b
    let (lo, hi) := if t.mono = 2 then (f32 yb, f32 ya) else (f32 ya, f32 yb)
    if lo.isNan || hi.isNan || hi.lt lo then some ⟨kind, side, idx, a, b, ya, yb⟩ else none)

/-- Orders 2 and 3 of R137. -/
def monotoneFail (t : SfuTable) : Option TableFail :=
  if t.mono = 0 then none
  else match slopesFail t with
    | some f => some f
    | none => seamFail t

/-- The 32-byte report of R139. -/
def tableReport (status : Nat) (f : TableFail) : List Byte :=
  leBytes 2 status ++ leBytes 1 f.kind ++ leBytes 1 f.side ++ leBytes 4 f.index ++ leBytes 4 f.x0 ++ leBytes 4 f.x1 ++
  leBytes 4 f.y0 ++ leBytes 4 f.y1 ++ leBytes 8 0

def TableFail.none : TableFail := ⟨0, 0, 0, 0, 0, 0, 0⟩

end Sys2Proof.Machine
end

