-- ==== Sys2Proof/Machine/SfuExact.lean ====
section
/-! DEFINITION. What the spec states of the built-in segments, whose values it does not give: the exact functions as
rationals, the error bounds of R131 and R150, the monotonicity of R134 and R138, and the seams of R151. The segments are
free among those that meet it (log entry 69). -/

namespace Sys2Proof.Machine

/-! ### The exact functions -/

/-- `t + t·ratio 0 + t·ratio 0·ratio 1 + …`, `fuel` terms. -/
def sumTerms (ratio : Nat → Rat) : Nat → Nat → Rat → Rat
  | 0, _, _ => 0
  | fuel + 1, k, t => t + sumTerms ratio fuel (k + 1) (t * ratio k)

/-- e^y for y ≤ 1, by its series at y/256; 0 below −200. -/
def expRat (y : Rat) : Rat :=
  if y < -200 then 0 else (sumTerms (fun k => y / 256 / ((k + 1 : Nat) : Rat)) 60 0 1) ^ 256

def ln2Rat : Rat := (0xB17217F7D1CF79ABC9E3B39803F2F6AF : Rat) / 2 ^ 128
def piRat : Rat := (0x3243F6A8885A308D313198A2E0370734 : Rat) / 2 ^ 124

/-- 2^k for an integer k. -/
def pow2Rat (k : Int) : Rat := if 0 ≤ k then 2 ^ k.toNat else 1 / 2 ^ (-k).toNat

/-- ⌊log2⌋ of a positive rational. -/
def ratBinade (z : Rat) : Int := floorLog2 z.num.toNat z.den

/-- Natural logarithm of a positive rational: 2·artanh((m − 1)/(m + 1)) + e·ln 2, where z = m·2^e. -/
def lnRat (z : Rat) : Rat :=
  let e := ratBinade z
  let m := z / pow2Rat e
  let w := (m - 1) / (m + 1)
  2 * sumTerms (fun k => w * w * ((2 * k + 1 : Nat) : Rat) / ((2 * k + 3 : Nat) : Rat)) 60 0 w + e * ln2Rat

/-- Square root of a positive rational, by Newton's iteration on its mantissa. -/
def sqrtRat (z : Rat) : Rat :=
  let h := ratBinade z / 2
  let m := z / pow2Rat (2 * h)
  ((List.range 10).foldl (fun y _ => (y + m / y) / 2) (3 / 2)) * pow2Rat h

def absRat (z : Rat) : Rat := if z < 0 then -z else z
def signRat (z : Rat) : Rat := if z < 0 then -1 else 1

def sigmoidRat (x : Rat) : Rat :=
  let t := expRat (-absRat x)
  if x < 0 then t / (1 + t) else 1 / (1 + t)

def tanhRat (x : Rat) : Rat :=
  let t := expRat (-2 * absRat x)
  signRat x * (1 - t) / (1 + t)

def erfRat (x : Rat) : Rat :=
  if 8 < absRat x then signRat x
  else 2 / sqrtRat piRat *
    sumTerms (fun k => -(x * x) * ((2 * k + 1 : Nat) : Rat) / (((k + 1) * (2 * k + 3) : Nat) : Rat)) 400 0 x

/-- The function of R131 at an input that takes a segment or a tail. -/
def exactFn (code : Nat) (x : Rat) : Rat :=
  if code = 0 then pow2Rat x.floor * expRat ((x - x.floor) * ln2Rat)
  else if code = 1 then lnRat x / ln2Rat
  else if code = 2 then 1 / x
  else if code = 3 then 1 / sqrtRat x
  else if code = 4 then sqrtRat x
  else if code = 5 then sigmoidRat x
  else if code = 6 then tanhRat x
  else if code = 7 then erfRat x
  else if code = 8 then x / 2 * (1 + erfRat (x / sqrtRat 2))
  else if code = 9 then x / 2 * (1 + tanhRat (sqrtRat (2 / piRat) * (x + 44715 / 1000000 * x ^ 3)))
  else if code = 10 then x * sigmoidRat x
  else (if x < 0 then 0 else x) + lnRat (1 + expRat (-absRat x))

/-! ### Bounds -/

/-- The first magnitude above FP32's exponents. -/
def overRat : Rat := pow2Rat 128

/-- The rational of FP32 bits; an infinity counts as ±2^128. -/
def ratOf (c : Nat) : Rat :=
  match f32 c with
  | .nan => 0
  | .inf neg => if neg then -overRat else overRat
  | .fin neg n d => if neg then -((n : Rat) / (d : Rat)) else (n : Rat) / (d : Rat)

/-- An FP32 ulp at a rational. -/
def ulpRat (v : Rat) : Rat := if v = 0 then pow2Rat (-149) else pow2Rat (max (ratBinade (absRat v) - 23) (-149))

/-- Error bounds in ulps and absolute (R131, R150). -/
def sfuBound (reloa : Bool) (code : Nat) : Nat × Rat :=
  if reloa then (if code = 0 || code = 2 || code = 3 then (3, 0) else (6, pow2Rat (-22)))
  else
    (([1, 2, 2, 2, 1, 2, 2, 2, 4, 4, 4, 2] : List Nat).getD code 0,
     if code = 5 || 8 ≤ code then pow2Rat (-24) else 0)

/-- FP32 bits of a rational, rounded to nearest. -/
def nearestBits (v : Rat) : Nat := toF32 (.fin (v < 0) v.num.natAbs v.den)

/-- A result lies within its function's bound of the exact value, whose magnitude counts up to 2^128. -/
def withinBound (reloa : Bool) (code x y : Nat) : Bool :=
  let v := exactFn code (ratOf x)
  let v := max (-overRat) (min overRat v)
  let b := sfuBound reloa code
  !(f32 y).isNan && decide (absRat (ratOf y - v) ≤ max ((b.1 : Rat) * ulpRat v) b.2)

/-! ### Order -/

/-- FP32 bits in ascending order of value, −0 just below +0. -/
def codeAt (n : Nat) : Nat := if n < 2 ^ 31 then 2 ^ 32 - 1 - n else n - 2 ^ 31

/-- Direction of a monotone function of R131: some true when increasing. -/
def monotoneDir (code : Nat) : Option Bool :=
  if code = 2 || code = 3 then some false else if 8 ≤ code && code ≤ 10 then none else some true

/-- Results in order, `lo` at the lower input; a NaN is compared with nothing, and RECIP by sign (R134). -/
def inOrder (up : Bool) (a b : FVal) : Bool :=
  a.isNan || b.isNan || !(if up then b.lt a else a.lt b)

def neighboursOk (code : Nat) (f : Nat → Nat) (up : Bool) (n : Nat) : Bool :=
  let a := codeAt n
  let b := codeAt (n + 1)
  (code = 2 && n + 1 = 2 ^ 31) || inOrder up (f32 (f a)) (f32 (f b))

/-- Slopes of a built-in function's segments (R138). -/
def slopesOk (code : Nat) (f : SfuFn) (up : Bool) : Bool :=
  [0, 1].all (fun side => (List.range ((builtinEmax code - builtinEmin code).toNat + 1)).all (fun (b : Nat) =>
    (List.range (2 ^ f.s)).all (fun (j : Nat) =>
      let (_, c1, c2, _) := f.entry side (builtinEmin code + (b : Int)) j
      slopeOk (xor up (side = 1)) c1 && slopeOk (xor up (side = 1)) (c1 + 2 * c2))))

/-- The piece that an input lies in: what its reduction gives, its binade cut to the tails, and its segment. -/
def pieceOf (f : SfuFn) (x : Nat) : Int × Int × Nat × Int × Nat :=
  match f32 x with
  | .fin neg n d =>
    let r := sfuReduce f neg n d
    let e := binade r.n r.d
    if r.n = 0 || e < f.emin r.side then (r.k, r.a, r.side, f.emin r.side - 1, 0)
    else if f.emax r.side < e then (r.k, r.a, r.side, f.emax r.side + 1, 0)
    else (r.k, r.a, r.side, e, fracBits r.n r.d e / 2 ^ (23 - f.s))
  | _ => (0, 0, 2, 0, 0)

/-- The inputs at the six seams of R151. -/
def stepSeams : List Nat := [0x3E000000, 0x3E900000, 0x3F000000, 0x3F180000, 0x3F400000, 0x3F680000]

/-- An EXP2 input lies at a listed fraction. -/
def atStepFraction (x : Nat) : Bool :=
  let v := ratOf x
  stepSeams.any (fun s => decide (v - v.floor = ratOf s))

/-- What R151 says of one pair of neighbouring inputs of a Reloa function. -/
def reloaPairOk (code : Nat) (n : Nat) : Bool :=
  let f := builtinFn true code
  let a := codeAt n
  let b := codeAt (n + 1)
  if code = 0 && stepSeams.contains b then builtinRaw true 0 b + 1 = builtinRaw true 0 a
  else if code = 0 && atStepFraction b then builtinRaw true 0 a ≤ builtinRaw true 0 b + 1
  else match monotoneDir code with
    | some up => pieceOf f a = pieceOf f b || neighboursOk code (builtinRaw true code) up n
    | none => true

/-! ### The built-in functions -/

/-- The segments of a function meet everything the spec states of them. -/
def segmentsOk (reloa : Bool) (code : Nat) : Bool :=
  (List.range (2 ^ 32)).all (fun x =>
    (builtinKnown code x).isSome || withinBound reloa code x (builtinRaw reloa code x)) &&
  (if reloa then (List.range (2 ^ 32 - 1)).all (reloaPairOk code)
   else match monotoneDir code with
     | some up => slopesOk code (builtinFn false code) up &&
         (List.range (2 ^ 32 - 1)).all (neighboursOk code (builtinRaw false code) up)
     | none => true)

/-- The exact value rounded, with the steps of R151. -/
def builtinNearest (reloa : Bool) (code x : Nat) : Nat :=
  if reloa && code = 0 && stepSeams.contains x then nearestBits (exactFn 0 (ratOf (x - 1))) - 1
  else nearestBits (exactFn code (ratOf x))

/-- A built-in function at FP32 bits (R129, R131, R133, R150): by its segments, which are free among those that meet what
the spec states of them. -/
def builtinEval (reloa : Bool) (code x : Nat) : Nat :=
  match builtinKnown code x with
  | some y => y
  | none => if segmentsOk reloa code then sfuEval reloa (builtinFn reloa code) x else builtinNearest reloa code x

/-- EXP2, RECIP and RSQRT as other instructions use them. -/
def exp2Of (reloa : Bool) (x : Nat) : Nat := builtinEval reloa 0 x
def recipOf (reloa : Bool) (x : Nat) : Nat := builtinEval reloa 2 x
def rsqrtOf (x : Nat) : Nat := builtinEval false 3 x

/-- The activation of a function code at FP32 bits (R141): a user slot's table, NONE, or a built-in function. -/
def actEval (reloa : Bool) (code : Nat) (tab : Option SfuTable) (x : Nat) : Nat :=
  if code = 255 then x
  else if code = 0x10 || code = 0x11 then
    match tab with
    | some t => t.eval x
    | none => f32Nan
  else builtinEval reloa code x

end Sys2Proof.Machine
end

