-- ==== Sys2Proof/Machine/Sampling.lean ====
section
/-! DEFINITION. The sampling unit (R340 to R342): drawing a token, and verifying candidates. -/

namespace Sys2Proof.Machine

def samplingMaster : Nat := 0x603

/-- A parameter entry (R340). -/
structure DrawParams where
  invTemp : Nat
  topP : Nat
  topK : Nat
  index : Nat
  seedLo : Nat
  seedHi : Nat
deriving DecidableEq, Repr

def drawParams (b : List Byte) : DrawParams := ⟨fld b 0 4, fld b 4 4, fld b 8 2, fld b 0xC 4, fld b 0x10 4, fld b 0x14 4⟩

/-- Values that R340 allows: TOP_P above 0 and at most 1, TOP_K 1 to 1,024, reserved bytes 0. -/
def drawParamsOk (b : List Byte) : Bool :=
  let p := drawParams b
  let tp := f32 p.topP
  1 ≤ p.topK && p.topK ≤ 1024 && zeros b 0xA 2 && zeros b 0x18 8 && tp.isFin && (FVal.fin false 0 1).lt tp &&
  !(FVal.fin false 1 1).lt tp

/-- What a draw gives (R341): a token, nothing, or a value that R341 does not state (a scaled logit that is a NaN). -/
inductive Draw where
  | token (t : Nat)
  | nonfinite
  | unstated
deriving DecidableEq, Repr

/-- FP32 comparisons on bits; false with a NaN. -/
def fgt (a b : Nat) : Bool := !(f32 a).isNan && !(f32 b).isNan && (f32 b).lt (f32 a)
def fge (a b : Nat) : Bool := !(f32 a).isNan && !(f32 b).isNan && !(f32 a).lt (f32 b)

/-- Insert a (value, ID) pair in descending value, ascending ID. -/
def insertDraw (x : Nat × Nat) : List (Nat × Nat) → List (Nat × Nat)
  | [] => [x]
  | y :: r => if fgt y.1 x.1 || (!fgt x.1 y.1 && y.2 ≤ x.2) then y :: insertDraw x r else x :: y :: r

/-- Values with their IDs, greatest first, the lower ID first among equals. -/
def drawOrder (z : List Nat) : List (Nat × Nat) := (z.zipIdx).foldl (fun l x => insertDraw x l) []

/-- Tokens that TOP_P keeps, with their sum: sum and count go on until the sum reaches `cut`. -/
def keepCount (cut : Nat) : List Nat → Nat → Nat → Nat × Nat
  | [], s, n => (s, n)
  | w :: ws, s, n => if n ≠ 0 && fge s cut then (s, n) else keepCount cut ws (fadd s w) (n + 1)

/-- The first ID whose running sum passes `t`, else the last kept. -/
def pickDraw (t : Nat) : List (Nat × Nat) → Nat → Nat → Nat
  | [], _, last => last
  | (w, i) :: r, c, _ => if fgt (fadd c w) t then i else pickDraw t r (fadd c w) i

/-- Draw one token from a row of FP32 logits (R341). -/
def drawToken (x : List Nat) (p : DrawParams) (index : Nat) : Draw :=
  if x.any (fun v => (f32 v).isNan) || x.all (fun v => v = f32NegInf) then .nonfinite
  else if (f32 p.invTemp).isZero then
    match drawOrder x with
    | [] => .nonfinite
    | y :: _ => .token y.2
  else
    let z := x.map (fun v => fmul v p.invTemp)
    match (z.zipIdx).find? (fun v => v.1 = f32PosInf) with
    | some v => .token v.2
    | none =>
      if z.any (fun v => (f32 v).isNan) then .unstated
      else
        let order := (drawOrder z).take p.topK
        let top := (order.head?.map (·.1)).getD 0
        let w := order.map (fun v => exp2Of false (fmul (fsub v.1 top) 0x3FB8AA3B))
        let cut := fmul p.topP (w.foldl fadd 0)
        let (s, keep) := keepCount cut w 0 0
        let w0 := philox0 (p.seedLo, p.seedHi) (index, 0, 0, 0)
        let t := fmul (toF32 (.fin false (w0 / 256) (2 ^ 24))) s
        .token (pickDraw t ((w.zip (order.map (·.2))).take keep) 0 0)

/-- What the unit finds for an entry: deepest accepted node, count, and the last draw. -/
structure Verified where
  deepest : Nat
  count : Nat
  last : Draw
deriving DecidableEq, Repr

/-- Draw from the row of the current node, and accept its first child, in ascending order, whose token was drawn (R342).
`row` gives the logits of a batch row and `tok` its input token. -/
def verify (row : Nat → List Nat) (tok : Nat → Nat) (e : SEntry) (p : DrawParams) : Nat → Nat → Nat → Verified
  | 0, cur, n => ⟨cur, n, .unstated⟩
  | fuel + 1, cur, n =>
    let r := if cur = 255 then e.start + e.v - 1 else e.start + e.v + cur
    match drawToken (row r) p ((p.index + n) % 2 ^ 32) with
    | .token t =>
      (match (List.range e.cand).find? (fun k => e.parents.getD k 255 = cur && tok (e.start + e.v + k) = t) with
        | some k => verify row tok e p fuel k (n + 1)
        | none => ⟨cur, n, .token t⟩)
    | d => ⟨cur, n, d⟩

/-- An output entry (R340); the next token of a draw without one is a free value. -/
def Verified.bytes (x : Verified) (free : Nat) : List Byte :=
  leBytes 1 x.deepest ++ leBytes 1 x.count ++
  (match x.last with
    | .token t => leBytes 2 stSuccess ++ leBytes 4 t
    | .nonfinite => leBytes 2 stSampleNonfinite ++ freshBytes free 4
    | .unstated => leBytes 2 stSuccess ++ freshBytes free 4)

/-- The sampling command (R340). -/
structure SampleCmd where
  v : Nat
  pitch : Nat
  fmt : Nat
deriving DecidableEq, Repr

def sampleCmd (c : List Byte) : SampleCmd := ⟨fld c 0 4, fld c 4 4, fld c 8 1⟩

/-- Why a command is invalid (R340), in the order that R340 lists. -/
def sampleCheck (c : List Byte) : Option Nat :=
  let x := sampleCmd c
  if x.v < 2 || 262144 < x.v || x.pitch % 16 ≠ 0 || (x.fmt ≤ 1 && x.pitch < x.v * (if x.fmt = 0 then 4 else 2)) then
    some stShapeInvalid
  else if 1 < x.fmt then some stFormatInvalid
  else if !zeros c 9 151 then some stRecordInvalid
  else none

/-- Read the logits of every batch row that an entry may draw from. -/
def readRows (env : Env) (dp : DataPlane) (l : Launch) (x : SampleCmd) : List Nat → Except EFault (List (Nat × List Nat))
  | [] => .ok []
  | r :: rs => do
    let w := if x.fmt = 0 then 4 else 2
    let b ← hubRead env dp l.part false (l.addrs.getD 1 0 + r * x.pitch) (x.v * w)
    let row := (List.range x.v).map (fun i => if x.fmt = 0 then fld b (4 * i) 4 else fld b (2 * i) 2 * 65536)
    let rows ← readRows env dp l x rs
    pure ((r, row) :: rows)

/-- Sample the entries in table order: output entries and acceptance bytes. -/
def sampleEntries (env : Env) (dp : DataPlane) (l : Launch) (x : SampleCmd) : List SEntry → Nat → Nat →
    Except EFault (List Byte × List Byte × Nat)
  | [], _, free => .ok ([], [], free)
  | e :: es, i, free => do
    let pb ← hubRead env dp l.part false (l.addrs.getD 3 0 + 32 * i) 32
    let rowIds := (List.range (e.cand + 1)).map (fun k => e.start + e.v - 1 + k)
    let rows ← readRows env dp l x rowIds
    let toks ← hubRead env dp l.part false (l.addrs.getD 2 0 + 4 * e.start) (4 * e.new)
    let v := verify (fun r => ((rows.find? (fun y => y.1 = r)).map (·.2)).getD []) (fun r => fld toks (4 * (r - e.start)) 4)
      e (drawParams pb) (e.cand + 1) 255 0
    let v := if drawParamsOk pb then v else ⟨255, 0, .unstated⟩
    let (out, acc, free') ← sampleEntries env dp l x es (i + 1) (free + 4)
    pure (v.bytes free ++ out, leBytes 1 v.deepest ++ acc, free')

/-- End a sampling record on a refused or poisoned access. -/
def sampleRefused (env : Env) (dp : DataPlane) (l : Launch) (f : EFault) : DataPlane :=
  hubEnd (hubFault env dp l.part samplingMaster l.seq l.q f) l.q l.seq (some f.status)

/-- What sampling a table reads: each entry's rows, token indices and parameters. -/
def sampleReads (l : Launch) (x : SampleCmd) (es : List SEntry) : List (Nat × Nat) :=
  (es.zipIdx).flatMap (fun y =>
    (l.addrs.getD 3 0 + 32 * y.2, 32) :: (l.addrs.getD 2 0 + 4 * y.1.start, 4 * y.1.new) ::
    (List.range (y.1.cand + 1)).map (fun k =>
      (l.addrs.getD 1 0 + (y.1.start + y.1.v - 1 + k) * x.pitch, x.v * (if x.fmt = 0 then 4 else 2))))

/-- SAMPLE (R340 to R342). The acceptance array is taken to be at handle 5, where the record names one. -/
def execSample (q seq : Nat) (s : State) : Out :=
  s.work (fun env dp =>
    match hubHeld dp q seq [3] with
    | none => dp
    | some l =>
      match sampleCheck l.const with
      | some st => hubEnd dp q seq (some st)
      | none =>
        match (do
          let tb ← readTable dp l.part none (l.addrs.headD 0)
          let (out, acc, free) ← sampleEntries env dp l (sampleCmd l.const) tb.entries 0 dp.free
          let dp := hubUsedAll env dp l.part (sampleReads l (sampleCmd l.const) tb.entries)
          let dp ← hubWrite env dp l.part false (l.addrs.getD 4 0) out
          let dp ← if l.handles.getD 5 0 = 0 then .ok dp else hubWrite env dp l.part false (l.addrs.getD 5 0) acc
          pure { dp with free := free }) with
        | .error f => sampleRefused env dp l f
        | .ok dp => hubEnd dp q seq none)

end Sys2Proof.Machine
end

