-- ==== Sys2Proof/Machine/Vector.lean ====
section
/-! DEFINITION. The vector unit: checks (R121), elementwise arithmetic (R122 to R125, R501), reductions (R126), FUNC
(R141), softmax (R143, R144), normalisation (R145, R147), the table loader (R137, R139, R140), and KV_MASK and KV_POS
(R173, R502). -/

namespace Sys2Proof.Machine

/-! ### Descriptors and checks -/

/-- The descriptor of R191. -/
structure VopDesc where
  vop : Nat
  fn : Nat
  flags : Nat
  rows : Nat
  len : Nat
  s0 : Nat
  s1 : Nat
  s2 : Nat
  rb : Nat
  table : Nat
  dst : Slot
  src0 : Slot
  src1 : Slot
  src2 : Slot
  stat : Slot
deriving DecidableEq, Repr

def vopDesc (d : List Byte) : VopDesc :=
  { vop := fld d 0 1, fn := fld d 1 1, flags := fld d 2 2, rows := fld d 4 2, len := fld d 6 2, s0 := fld d 8 4,
    s1 := fld d 0xC 4, s2 := fld d 0x10 4, rb := fld d 0x14 4, table := fld d 0x18 8, dst := slotAt d 0x20,
    src0 := slotAt d 0x30, src1 := slotAt d 0x40, src2 := slotAt d 0x50, stat := slotAt d 0x60 }

def VopDesc.stencil (x : VopDesc) : Bool := bit x.flags 0
def VopDesc.zfill (x : VopDesc) : Bool := bit x.flags 1
def VopDesc.reloa (x : VopDesc) : Bool := bit x.flags 2

/-- A source slot that is present, with how the operation uses it. -/
def VopDesc.sources (x : VopDesc) (g : VSig) : List (Slot × SrcUse) :=
  [(x.src0, g.s0), (x.src1, g.s1), (x.src2, g.s2)].filter (fun p => p.2.need ≠ 0 && p.1.kind = 1)

/-- Byte rows of a source (R500). -/
def srcRanges (x : VopDesc) (s : Slot) (u : SrcUse) : List (Nat × Nat) :=
  rowRanges s.addr s.pitch (if u.shared then 1 else x.rows) (vecBytes (fFmt s.fmtw) (if u.single then 1 else x.len))

/-- Bytes of a destination row. -/
def VopDesc.dstBytes (x : VopDesc) (g : VSig) : Nat := vecBytes (fFmt x.dst.fmtw) (if g.dstSingle then 1 else x.len)

def VopDesc.dstRanges (x : VopDesc) (g : VSig) : List (Nat × Nat) :=
  rowRanges x.dst.addr x.dst.pitch x.rows (x.dstBytes g)

def VopDesc.statRanges (x : VopDesc) (g : VSig) : List (Nat × Nat) :=
  if g.stat = 0 then [] else rowRanges x.stat.addr x.stat.pitch x.rows g.stat

/-- Bytes of the STAT rows that an instruction writes: OSM_FINISH only reads them (R191). -/
def VopDesc.statWrites (x : VopDesc) (g : VSig) (rows : List Nat) : List (Nat × Nat) :=
  if g.stat = 0 || x.vop = 0x4A then [] else rows.map (fun r => (x.stat.addr + r * x.stat.pitch, g.stat))

/-- A format word that a vector slot may carry (R43, R120, R501). -/
def vecFmtOk (w : Nat) (fmts : List Nat) : Bool := fmtWordOk w && fSform w = 0 && fmts.contains (fFmt w)

/-- Formats of check 1 of R121. -/
def vecFormatsOk (x : VopDesc) (g : VSig) : Bool :=
  (x.sources g).all (fun p => vecFmtOk p.1.fmtw p.2.fmts) && vecFmtOk x.dst.fmtw g.dst &&
  (g.stat = 0 || vecFmtOk x.stat.fmtw [0])

/-- Shapes of check 3 of R121. -/
def vecShapeOk (x : VopDesc) (g : VSig) : Bool :=
  1 ≤ x.rows && x.rows ≤ 2048 && 1 ≤ x.len && x.len ≤ 8192 &&
  (x.sources g).all (fun p => p.1.pitch % 16 = 0 &&
    vecBytes (fFmt p.1.fmtw) (if p.2.single then 1 else x.len) ≤ p.1.pitch) &&
  x.dst.pitch % 16 = 0 && x.dstBytes g ≤ x.dst.pitch &&
  (g.stat = 0 || (x.stat.pitch % 16 = 0 && g.stat ≤ x.stat.pitch))

/-- A destination is the same range as a source, with the same pitch and element size, or disjoint from it (R121). -/
def sameOrApart (x : VopDesc) (d : Slot) (dr : List (Nat × Nat)) (p : Slot × SrcUse) : Bool :=
  let sr := srcRanges x p.1 p.2
  (d.addr = p.1.addr && d.pitch = p.1.pitch && dr = sr &&
    vecBytes (fFmt d.fmtw) 1 = vecBytes (fFmt p.1.fmtw) 1) || !meets dr sr

/-- DST is the same range as a STAT array that is only read, with its pitch and element size, or disjoint from it. -/
def dstStatOk (x : VopDesc) (g : VSig) : Bool :=
  (x.dst.addr = x.stat.addr && x.dst.pitch = x.stat.pitch && x.dstRanges g = x.statRanges g && vecBytes (fFmt x.dst.fmtw) 1 = 4)
    || !meets (x.dstRanges g) (x.statRanges g)

/-- Overlaps of R121. OSM_FINISH only reads STAT, so that STAT is a source of it (R191). -/
def vecOverlapOk (x : VopDesc) (g : VSig) : Bool :=
  (x.sources g).all (sameOrApart x x.dst (x.dstRanges g)) &&
  (if x.vop = 0x4A then dstStatOk x g
   else (x.sources g).all (sameOrApart x x.stat (x.statRanges g)) && !meets (x.dstRanges g) (x.statRanges g))

/-- The issue checks of R121 before the special function unit's; answers the valid rows. Of several slots outside the own
store, the first of SRC0, SRC1, SRC2, STAT read, DST and STAT written is reported (log entry 62). -/
def vecChecks (dp : DataPlane) (t : Nat) (x : VopDesc) (g : VSig) : EngineM (List Nat) := do
  require stFormatInvalid (vecFormatsOk x g)
  require stShapeInvalid (vecShapeOk x g)
  require stOperandOverlap (vecOverlapOk x g)
  let stat := x.statRanges g
  atIssue (ownStoreCheck t .read ((x.sources g).flatMap (fun p => srcRanges x p.1 p.2) ++ (if x.vop = 0x4A then stat else [])))
  atIssue (ownStoreCheck t .write (x.dstRanges g ++ (if x.vop = 0x4A then [] else stat)))
  atIssue (validRows dp (dp.cls t) (some t) x.stencil x.rows x.table x.rb x.rows)

/-! ### Elements -/

/-- Code of element `i` of row `r` of a slot. -/
def slotCode (rd : Nat → Byte) (s : Slot) (r i : Nat) : Nat := elemCode rd (fFmt s.fmtw) (s.addr + r * s.pitch) i

/-- Value of that element, widened exactly (R47). -/
def slotVal (rd : Nat → Byte) (s : Slot) (r i : Nat) : FVal := codeVal (fFmt s.fmtw) (slotCode rd s r i)

/-- The same as FP32 bits. -/
def slotF32 (rd : Nat → Byte) (s : Slot) (r i : Nat) : Nat := toF32 (slotVal rd s r i)

/-- Layout of a floating-point destination. -/
def outLayout (w : Nat) : FLayout := if fFmt w = 1 then layBF16 else if fFmt w = 2 then layFP16 else layFP32

/-- A result's code in the destination format, rounded once (R48, R123). -/
def narrowTo (w : Nat) (v : FVal) : Nat := encodeF (outLayout w) v

/-- The stored sign bit of a slot's element (R501). -/
def slotSign (rd : Nat → Byte) (s : Slot) (r i : Nat) : Bool :=
  let f := fFmt s.fmtw
  bit (slotCode rd s r i) (8 * vecBytes f 1 - 1)

/-- Bytes of a row of codes. -/
def codeBytes (w : Nat) (cs : List Nat) : List Byte := cs.flatMap (leBytes (vecBytes (fFmt w) 1))

/-- What a vector instruction computes for one row: the codes of its DST row, and the words of its STAT row by word
number. -/
structure VRow where
  codes : List Nat
  stats : List (Nat × Nat)

/-- Read sets of the valid rows, and their poison (R221). -/
def vecReads (x : VopDesc) (g : VSig) (rows : List Nat) (statRead : Bool) : List (Nat × Nat) :=
  (x.sources g).flatMap (fun p =>
    if p.2.shared then srcRanges x p.1 p.2
    else rows.map (fun r => (p.1.addr + r * p.1.pitch, vecBytes (fFmt p.1.fmtw) (if p.2.single then 1 else x.len)))) ++
  (if statRead then rows.map (fun r => (x.stat.addr + r * x.stat.pitch, 8)) else [])

/-- Run a checked instruction over its valid rows; masked rows take +0 under ZFILL (R120). -/
def vecRun (t : Nat) (dp : DataPlane) (x : VopDesc) (g : VSig) (rows : List Nat) (statRead : Bool)
    (f : (Nat → Byte) → Nat → VRow) : EngineM EngineEffect := do
  let out := if x.zfill then List.range x.rows else rows
  let wr := out.map (fun r => (x.dst.addr + r * x.dst.pitch, x.dstBytes g)) ++
    x.statWrites g rows
  whileRunning wr (checkReads dp (dp.cls t) t (vecReads x g rows statRead))
  let rd := byteAt dp.mem.dev
  let writes := out.map (fun r =>
      (x.dst.addr + r * x.dst.pitch,
       if rows.contains r then codeBytes x.dst.fmtw (f rd r).codes else List.replicate (x.dstBytes g) 0)) ++
    rows.flatMap (fun r => (f rd r).stats.map (fun w => (x.stat.addr + r * x.stat.pitch + 4 * w.1, leBytes 4 w.2)))
  pure { dp, undef := wr, writes := [deviceWrites writes] }

/-- A VOP whose rows a function gives: the checks, the special function unit's own checks, then the rows. -/
def vecOp (t : Nat) (statRead : Bool) (sfu : VopDesc → Nat)
    (f : VopDesc → (Nat → Byte) → Nat → VRow) (dp : DataPlane) (q : QEntry) : EngineM EngineEffect := do
  let x := vopDesc q.desc
  match vopSig x.vop x.fn x.flags with
  | none => .error { fault := EFault.plain stDescInvalid }
  | some g => do
    let rows ← vecChecks dp t x g
    require (sfu x) (sfu x = 0)
    vecRun t dp x g rows statRead (f x)

/-- No check of the special function unit. -/
def noSfu (_ : VopDesc) : Nat := 0

/-- An elementwise operation: each DST code from its row and element. -/
def eachElem (f : VopDesc → (Nat → Byte) → Nat → Nat → Nat) (x : VopDesc) (rd : Nat → Byte) (r : Nat) : VRow :=
  ⟨(List.range x.len).map (f x rd r), []⟩

/-- A row reduction: element 0 of the DST row (R126, R501). -/
def eachRow (f : VopDesc → (Nat → Byte) → Nat → Nat) (x : VopDesc) (rd : Nat → Byte) (r : Nat) : VRow :=
  ⟨[f x rd r], []⟩

/-- A unary operation on values, rounded to the destination. -/
def unOp (f : FVal → FVal) (x : VopDesc) (rd : Nat → Byte) (r i : Nat) : Nat :=
  narrowTo x.dst.fmtw (f (slotVal rd x.src0 r i))

/-- A binary operation on values, rounded once to the destination (R123). -/
def binOp (f : FVal → FVal → FVal) (x : VopDesc) (rd : Nat → Byte) (r i : Nat) : Nat :=
  narrowTo x.dst.fmtw (f (slotVal rd x.src0 r i) (slotVal rd x.src1 r i))

/-- An INT32 mask of a comparison (R125). -/
def cmpOp (f : FVal → FVal → Bool) (x : VopDesc) (rd : Nat → Byte) (r i : Nat) : Nat :=
  if f (slotVal rd x.src0 r i) (slotVal rd x.src1 r i) then 0xFFFFFFFF else 0

/-- An INT32 operation on 32-bit patterns (R124). -/
def intOp (f : Nat → Nat → Nat) (x : VopDesc) (rd : Nat → Byte) (r i : Nat) : Nat :=
  f (slotCode rd x.src0 r i) (slotCode rd x.src1 r i) % 2 ^ 32

/-- Magnitude of a value under a sign; a NaN stays NaN (R501). -/
def withSign (v : FVal) (neg : Bool) : FVal := if neg then v.abs.neg else v.abs

/-- CLASS in the element's own format (R125, R501). -/
def classOf (fmt c : Nat) : Nat :=
  let l := if fmt = 0 then layFP32 else if fmt = 1 then layBF16 else layFP16
  match decodeF l c with
  | .nan => 1
  | .inf true => 2
  | .inf false => 256
  | .fin neg n _ =>
    let sub := c % l.signBit < 2 ^ l.m
    if n = 0 then (if neg then 16 else 32)
    else if neg then (if sub then 8 else 4) else (if sub then 64 else 128)

/-! ### Row functions -/

/-- FP32 bits of a whole row. -/
def rowF32 (x : VopDesc) (rd : Nat → Byte) (r : Nat) : List Nat := (List.range x.len).map (slotF32 rd x.src0 r)

/-- Reductions of R126. -/
def rsumL (xs : List Nat) : Nat := xs.foldl fadd 0
def rsumsqL (xs : List Nat) : Nat := xs.foldl (fun a v => ffma v v a) 0
def rmaxL (xs : List Nat) : Nat := xs.foldl fmax f32NegInf
def rminL (xs : List Nat) : Nat := xs.foldl fmin f32PosInf

/-- Product rounded once to the destination. -/
def mulDst (w a b : Nat) : Nat := narrowTo w ((f32 a).mul (f32 b))

/-- SOFTMAX of one row (R143). -/
def softmaxRow (x : VopDesc) (rd : Nat → Byte) (r : Nat) : VRow :=
  let xs := rowF32 x rd r
  let m := rmaxL xs
  if m = f32NegInf then ⟨xs.map (fun _ => 0), []⟩
  else
    let e := xs.map (fun v => exp2Of x.reloa (fsub v m))
    let k := recipOf x.reloa (rsumL e)
    ⟨e.map (fun v => mulDst x.dst.fmtw v k), []⟩

/-- OSM_STEP of one row (R144): words 0, 1 of STAT are (m, l), and word 2 takes α. -/
def osmStepRow (x : VopDesc) (rd : Nat → Byte) (r : Nat) : VRow :=
  let a := x.stat.addr + r * x.stat.pitch
  let mOld := rdNat rd a 4
  let lOld := rdNat rd (a + 4) 4
  let xs := rowF32 x rd r
  let m := fmax mOld (rmaxL xs)
  if m = f32NegInf then ⟨xs.map (fun _ => 0), [(0, mOld), (1, lOld), (2, f32One)]⟩
  else
    let al := exp2Of x.reloa (fsub mOld m)
    let p := xs.map (fun v => exp2Of x.reloa (fsub v m))
    ⟨p.map (fun v => narrowTo x.dst.fmtw (f32 v)), [(0, m), (1, ffma lOld al (rsumL p)), (2, al)]⟩

/-- OSM_FINISH of one row (R144): zero when l is +0. -/
def osmFinishRow (x : VopDesc) (rd : Nat → Byte) (r : Nat) : VRow :=
  let l := rdNat rd (x.stat.addr + r * x.stat.pitch + 4) 4
  let xs := rowF32 x rd r
  if l = 0 then ⟨xs.map (fun _ => 0), []⟩
  else
    let k := recipOf false l
    ⟨xs.map (fun v => mulDst x.dst.fmtw v k), []⟩

/-- FP32 bits of a row count. -/
def natF32 (n : Nat) : Nat := toF32 (FVal.ofInt n)

/-- LNORM of one row (R145): μ and r to STAT words 0 and 1. -/
def lnormRow (x : VopDesc) (rd : Nat → Byte) (r : Nat) : VRow :=
  let xs := rowF32 x rd r
  let x0 := xs.headD 0
  let s := xs.foldl (fun (s : Nat × Nat) v =>
    let d := fsub v x0
    (fadd s.1 d, ffma d d s.2)) (0, 0)
  let n := natF32 x.len
  let q := fdiv s.1 n
  let v := fsub (fdiv s.2 n) (fmul q q)
  let var := if (f32 v).isNeg then 0 else v
  let mu := fadd x0 q
  let k := rsqrtOf (fadd var x.s2)
  let ys := (List.range x.len).map (fun i =>
    let w := fmul (fsub (fsub (xs.getD i 0) x0) q) k
    let ga := if x.src1.kind = 1 then slotVal rd x.src1 0 i else .fin false 1 1
    if x.src2.kind = 1 then narrowTo x.dst.fmtw ((f32 w).fma ga (slotVal rd x.src2 0 i))
    else narrowTo x.dst.fmtw ((f32 w).mul ga))
  ⟨ys, if bit x.flags 3 then [(0, mu), (1, k)] else []⟩

/-- RMSNORM of one row (R147): r to STAT word 0. -/
def rmsnormRow (x : VopDesc) (rd : Nat → Byte) (r : Nat) : VRow :=
  let xs := rowF32 x rd r
  let k := rsqrtOf (fadd (fdiv (rsumsqL xs) (natF32 x.len)) x.s2)
  let ys := (List.range x.len).map (fun i =>
    let ga := if x.src1.kind = 1 then slotVal rd x.src1 0 i else .fin false 1 1
    narrowTo x.dst.fmtw ((f32 (fmul (xs.getD i 0) k)).mul ga))
  ⟨ys, if bit x.flags 3 then [(0, k)] else []⟩

/-- Bias of FUNC as FP32 bits, none when absent (R141, R191). -/
def funcBias (x : VopDesc) (rd : Nat → Byte) (i : Nat) : Option Nat :=
  let b := bits x.flags 5 4
  if b = 1 then some x.s2 else if b = 2 then some (slotF32 rd x.src1 0 i) else none

/-- The pre-step of FUNC (R141, R150). -/
def funcPre (reloa : Bool) (scale x : Nat) : Option Nat → Nat
  | none => fmul scale x
  | some b => if reloa then fadd (fmul scale x) b else ffma scale x b

/-- One element of FUNC (R141). -/
def funcElem (tab : Option SfuTable) (x : VopDesc) (rd : Nat → Byte) (r i : Nat) : Nat :=
  let p := funcPre x.reloa x.s0 (slotF32 rd x.src0 r i) (funcBias x rd i)
  mulDst x.dst.fmtw (actEval x.reloa x.fn tab p) x.s1

/-! ### Issue -/

/-- Run a vector-stream instruction of stream V`v` whose head satisfies `want`. -/
def runVec (env : Env) (dp : DataPlane) (t v : Nat) (want : QEntry → Bool)
    (f : DataPlane → QEntry → EngineM EngineEffect) : DataPlane :=
  if v < 4 then runEngine env dp t (3 + v) 3 want f else dp

/-- Run a VOP of one operation code. -/
def runVop (t v code : Nat) (s : State) (f : DataPlane → QEntry → EngineM EngineEffect) : Out :=
  s.work (fun env dp => runVec env dp t v (fun q => q.op = 1 && fld q.desc 0 1 = code) f)

/-- VOP_ADD: x + y (R122, R123). -/
def execVopAdd (t v : Nat) (s : State) : Out := runVop t v 0x00 s (vecOp t false noSfu (eachElem (binOp FVal.add)))

/-- VOP_SUB: x − y. -/
def execVopSub (t v : Nat) (s : State) : Out := runVop t v 0x01 s (vecOp t false noSfu (eachElem (binOp FVal.sub)))

/-- VOP_MUL: x × y. -/
def execVopMul (t v : Nat) (s : State) : Out := runVop t v 0x02 s (vecOp t false noSfu (eachElem (binOp FVal.mul)))

/-- VOP_FMA: x × y + z with one rounding (R122). -/
def execVopFma (t v : Nat) (s : State) : Out :=
  runVop t v 0x03 s (vecOp t false noSfu (eachElem (fun x rd r i =>
    narrowTo x.dst.fmtw ((slotVal rd x.src0 r i).fma (slotVal rd x.src1 r i) (slotVal rd x.src2 r i)))))

/-- VOP_MIN (R122). -/
def execVopMin (t v : Nat) (s : State) : Out := runVop t v 0x04 s (vecOp t false noSfu (eachElem (binOp FVal.min)))

/-- VOP_MAX (R122). -/
def execVopMax (t v : Nat) (s : State) : Out := runVop t v 0x05 s (vecOp t false noSfu (eachElem (binOp FVal.max)))

/-- VOP_ABS. -/
def execVopAbs (t v : Nat) (s : State) : Out := runVop t v 0x06 s (vecOp t false noSfu (eachElem (unOp FVal.abs)))

/-- VOP_NEG. -/
def execVopNeg (t v : Nat) (s : State) : Out := runVop t v 0x07 s (vecOp t false noSfu (eachElem (unOp FVal.neg)))

/-- COPYSIGN: the magnitude of SRC0 with the stored sign bit of SRC1 (R501). -/
def execCopysign (t v : Nat) (s : State) : Out :=
  runVop t v 0x08 s (vecOp t false noSfu (eachElem (fun x rd r i =>
    narrowTo x.dst.fmtw (withSign (slotVal rd x.src0 r i) (slotSign rd x.src1 r i)))))

/-- CMP.EQ (R122, R125). -/
def execCmpEq (t v : Nat) (s : State) : Out := runVop t v 0x10 s (vecOp t false noSfu (eachElem (cmpOp FVal.eq)))

/-- CMP.NE: true with a NaN operand (R122). -/
def execCmpNe (t v : Nat) (s : State) : Out :=
  runVop t v 0x11 s (vecOp t false noSfu (eachElem (cmpOp (fun a b => !a.eq b))))

/-- CMP.LT. -/
def execCmpLt (t v : Nat) (s : State) : Out := runVop t v 0x12 s (vecOp t false noSfu (eachElem (cmpOp FVal.lt)))

/-- CMP.LE: false with a NaN operand. -/
def execCmpLe (t v : Nat) (s : State) : Out :=
  runVop t v 0x13 s (vecOp t false noSfu (eachElem (cmpOp (fun a b => a.lt b || a.eq b))))

/-- CMP.UNORD. -/
def execCmpUnord (t v : Nat) (s : State) : Out :=
  runVop t v 0x14 s (vecOp t false noSfu (eachElem (cmpOp (fun a b => a.isNan || b.isNan))))

/-- SEL: any set stored bit of the mask selects SRC1 (R501). -/
def execSel (t v : Nat) (s : State) : Out :=
  runVop t v 0x15 s (vecOp t false noSfu (eachElem (fun x rd r i =>
    narrowTo x.dst.fmtw (if slotCode rd x.src0 r i ≠ 0 then slotVal rd x.src1 r i else slotVal rd x.src2 r i))))

/-- CLASS (R125, R501). -/
def execClassTest (t v : Nat) (s : State) : Out :=
  runVop t v 0x18 s (vecOp t false noSfu (eachElem (fun x rd r i =>
    classOf (fFmt x.src0.fmtw) (slotCode rd x.src0 r i))))

/-- INT32 ADD: modulo 2^32 (R124). -/
def execInt32Add (t v : Nat) (s : State) : Out := runVop t v 0x20 s (vecOp t false noSfu (eachElem (intOp (· + ·))))

/-- INT32 SUB: modulo 2^32. -/
def execInt32Sub (t v : Nat) (s : State) : Out :=
  runVop t v 0x21 s (vecOp t false noSfu (eachElem (intOp (fun a b => a + 2 ^ 32 - b))))

/-- INT32 MUL: the low 32 bits. -/
def execInt32Mul (t v : Nat) (s : State) : Out := runVop t v 0x22 s (vecOp t false noSfu (eachElem (intOp (· * ·))))

/-- INT32 AND. -/
def execInt32And (t v : Nat) (s : State) : Out := runVop t v 0x23 s (vecOp t false noSfu (eachElem (intOp (· &&& ·))))

/-- INT32 OR. -/
def execInt32Or (t v : Nat) (s : State) : Out := runVop t v 0x24 s (vecOp t false noSfu (eachElem (intOp (· ||| ·))))

/-- INT32 XOR. -/
def execInt32Xor (t v : Nat) (s : State) : Out := runVop t v 0x25 s (vecOp t false noSfu (eachElem (intOp (· ^^^ ·))))

/-- INT32 SHL: counts modulo 32. -/
def execInt32Shl (t v : Nat) (s : State) : Out :=
  runVop t v 0x26 s (vecOp t false noSfu (eachElem (intOp (fun a b => a * 2 ^ (b % 32)))))

/-- INT32 SHR: logical. -/
def execInt32Shr (t v : Nat) (s : State) : Out :=
  runVop t v 0x27 s (vecOp t false noSfu (eachElem (intOp (fun a b => a / 2 ^ (b % 32)))))

/-- INT32 SAR: arithmetic. -/
def execInt32Sar (t v : Nat) (s : State) : Out :=
  runVop t v 0x28 s (vecOp t false noSfu (eachElem (intOp (fun a b =>
    patternOf 32 (signedOf 32 a / (2 ^ (b % 32) : Int))))))

/-- INT32 MIN: signed. -/
def execInt32Min (t v : Nat) (s : State) : Out :=
  runVop t v 0x29 s (vecOp t false noSfu (eachElem (intOp (fun a b => if signedOf 32 b < signedOf 32 a then b else a))))

/-- INT32 MAX: signed. -/
def execInt32Max (t v : Nat) (s : State) : Out :=
  runVop t v 0x2A s (vecOp t false noSfu (eachElem (intOp (fun a b => if signedOf 32 a < signedOf 32 b then b else a))))

/-- CVT: by the format words, rounded once (R48, R123). -/
def execCvt (t v : Nat) (s : State) : Out := runVop t v 0x30 s (vecOp t false noSfu (eachElem (unOp id)))

/-- CVT.F2I: to nearest even, saturating, NaN to 0 (R124). -/
def execCvtF2i (t v : Nat) (s : State) : Out :=
  runVop t v 0x31 s (vecOp t false noSfu (eachElem (fun x rd r i => patternOf 32 (toInt32 (slotVal rd x.src0 r i)))))

/-- CVT.I2F: to nearest even (R124). -/
def execCvtI2f (t v : Nat) (s : State) : Out :=
  runVop t v 0x32 s (vecOp t false noSfu (eachElem (fun x rd r i =>
    toF32 (FVal.ofInt (signedOf 32 (slotCode rd x.src0 r i))))))

/-- RSUM (R126). -/
def execRsum (t v : Nat) (s : State) : Out :=
  runVop t v 0x38 s (vecOp t false noSfu (eachRow (fun x rd r => narrowTo x.dst.fmtw (f32 (rsumL (rowF32 x rd r))))))

/-- RSUMSQ. -/
def execRsumsq (t v : Nat) (s : State) : Out :=
  runVop t v 0x39 s (vecOp t false noSfu (eachRow (fun x rd r => narrowTo x.dst.fmtw (f32 (rsumsqL (rowF32 x rd r))))))

/-- RMAX. -/
def execRmax (t v : Nat) (s : State) : Out :=
  runVop t v 0x3A s (vecOp t false noSfu (eachRow (fun x rd r => narrowTo x.dst.fmtw (f32 (rmaxL (rowF32 x rd r))))))

/-- RMIN. -/
def execRmin (t v : Nat) (s : State) : Out :=
  runVop t v 0x3B s (vecOp t false noSfu (eachRow (fun x rd r => narrowTo x.dst.fmtw (f32 (rminL (rowF32 x rd r))))))

/-- One element of BCAST (R501): the per-row value, or the row combined with it. -/
def bcastElem (x : VopDesc) (rd : Nat → Byte) (r i : Nat) : Nat :=
  let v := slotVal rd x.src1 r 0
  let a := slotVal rd x.src0 r i
  narrowTo x.dst.fmtw
    (if x.fn = 255 then v else if x.fn = 0 then a.add v else if x.fn = 1 then a.sub v else if x.fn = 2 then a.mul v
     else if x.fn = 4 then a.min v else if x.fn = 5 then a.max v else withSign a (slotSign rd x.src1 r 0))

/-- BCAST. -/
def execBcast (t v : Nat) (s : State) : Out := runVop t v 0x3C s (vecOp t false noSfu (eachElem bcastElem))

/-- The user slot that a FUNC names, if any. -/
def userSlot (fn : Nat) : Option Nat := if fn = 0x10 then some 0 else if fn = 0x11 then some 1 else none

/-- The special function unit's checks of FUNC (R121). -/
def funcCheck (x : Tile) (v : VopDesc) : Nat :=
  if !funcCodeOk v.reloa v.fn then stSfuFuncInvalid
  else match userSlot v.fn with
    | none => 0
    | some k => if (SMap.get TableSlot.init x.tables k).cur.isNone then stSfuTableEmpty else 0

/-- FUNC (R141). An instruction that names a slot whose load is pending waits for the swap (R140). -/
def execFunc (t v : Nat) (s : State) : Out :=
  s.work (fun env dp =>
    let tab := fun fn => (userSlot fn).bind (fun k => (SMap.get TableSlot.init (dp.tile t).tables k).cur)
    let loading := fun fn => match userSlot fn with
      | none => false
      | some k => (SMap.get TableSlot.init (dp.tile t).tables k).shadow.isSome
    runVec env dp t v (fun q => q.op = 1 && fld q.desc 0 1 = 0x40 && !loading (fld q.desc 1 1))
      (vecOp t false (funcCheck (dp.tile t)) (fun x rd r => eachElem (funcElem (tab x.fn)) x rd r)))

/-- SOFTMAX (R143). -/
def execSoftmax (t v : Nat) (s : State) : Out := runVop t v 0x48 s (vecOp t false noSfu softmaxRow)

/-- OSM_STEP (R144). -/
def execOsmStep (t v : Nat) (s : State) : Out := runVop t v 0x49 s (vecOp t true noSfu osmStepRow)

/-- OSM_FINISH (R144). -/
def execOsmFinish (t v : Nat) (s : State) : Out := runVop t v 0x4A s (vecOp t true noSfu osmFinishRow)

/-- LNORM (R145). -/
def execLnorm (t v : Nat) (s : State) : Out := runVop t v 0x50 s (vecOp t false noSfu lnormRow)

/-- RMSNORM (R147). -/
def execRmsnorm (t v : Nat) (s : State) : Out := runVop t v 0x51 s (vecOp t false noSfu rmsnormRow)

/-! ### The table loader -/

/-- An address and length readable in the own tile store. -/
def inStore (t a n : Nat) : Bool := (inOwnStore t [(a, n)]).isNone

/-- A refused load: its report is written and the slot keeps its table (R139, R140). -/
def loadFail (t rep : Nat) (status : Nat) (f : TableFail) : EngineFail :=
  { fault := EFault.plain status, after := fun dp =>
      if rep % 32 = 0 && inStore t rep 32 then dp.tileWrite t rep (tableReport status f) else dp }

/-- TBLLOAD (R135 to R140): the checked table goes to the slot's shadow copy. An address that check 1 refuses gives
TABLE_INVALID wherever it lies, and a poisoned granule of the table ends the load as any poisoned operand does, without a
report (log entry 70). -/
def tblload (t : Nat) (dp : DataPlane) (q : QEntry) : EngineM EngineEffect := do
  let slot := fld q.desc 0 1
  let a := fld q.desc 8 8
  let rep := fld q.desc 16 8
  let bad := fun {α : Type} => (Except.error (loadFail t rep stTableInvalid TableFail.none) : EngineM α)
  if !(a % 16 = 0 && rep % 32 = 0 && inStore t a 64 && inStore t rep 32) then bad
  else do
    atIssue (checkReads dp (dp.cls t) t [(a, 64)])
    let h := readBytes dp.mem.dev a 64
    let n := fld h 8 2
    if !(tableHeaderOk h && inStore t (a + 64) (16 * n)) then bad
    else do
      atIssue (checkReads dp (dp.cls t) t [(a + 64, 16 * n)])
      let b := readBytes dp.mem.dev (a + 64) (16 * n)
      if !(List.range n).all (fun i => zeros b (16 * i + 13) 3) then bad
      else
        let tb := tableOf h b
        match monotoneFail tb with
        | some f => .error (loadFail t rep stTableNotMonotone f)
        | none =>
          let x := dp.tile t
          let sl := SMap.get TableSlot.init x.tables slot
          let dp := dp.setTile t
            { x with tables := SMap.set TableSlot.init x.tables slot { sl with shadow := some tb } }
          pure { dp, undef := [(rep, 32)], writes := [deviceWrites [(rep, tableReport 0 TableFail.none)]] }

/-- TBLLOAD: a second load to a slot waits for the first (R140). -/
def execTblload (t v : Nat) (s : State) : Out :=
  s.work (fun env dp =>
    runVec env dp t v (fun q => q.op = 2 &&
      (SMap.get TableSlot.init (dp.tile t).tables (fld q.desc 0 1)).shadow.isNone) (tblload t))

/-- A running FUNC names a user slot. -/
def slotInUse (x : Tile) (slot : Nat) : Bool :=
  [3, 4, 5, 6].any (fun e => match (x.engine e).run with
    | some r => r.entry.op = 1 && fld r.entry.desc 0 1 = 0x40 && userSlot (fld r.entry.desc 1 1) = some slot
    | none => false)

/-- TABLE_SHADOW_SWAP (R140): the shadow replaces the slot's table once no accepted instruction names the slot. -/
def execTableShadowSwap (t slot : Nat) (s : State) : Out :=
  s.work (fun _ dp =>
    let x := dp.tile t
    let sl := SMap.get TableSlot.init x.tables slot
    if sl.shadow.isSome && !slotInUse x slot then
      dp.setTile t { x with tables := SMap.set TableSlot.init x.tables slot ⟨sl.shadow, none⟩ }
    else dp)

/-! ### KV_MASK and KV_POS -/

/-- KV_MASK (R173, R502): one row for each new token and query head. -/
def kvMask (t : Nat) (dp : DataPlane) (q : QEntry) : EngineM EngineEffect := do
  let entry := fld q.desc 8 2
  let g := fld q.desc 10 2
  let t0 := fld q.desc 12 4
  let n := fld q.desc 16 4
  let pitch := fld q.desc 20 4
  let dst := fld q.desc 24 8
  let tb ← atIssue (readTable dp (dp.cls t) (some t) (fld q.desc 0 8))
  match tb.entries[entry]? with
  | none => .error { fault := EFault.plain stStencilInvalid }
  | some e => do
    require stShapeInvalid (1 ≤ g && 1 ≤ n && n ≤ 8192 && pitch % 16 = 0 && 4 * n ≤ pitch)
    let wr := rowRanges dst pitch (e.new * g) (4 * n)
    atIssue (ownStoreCheck t .write wr)
    let row := fun i => (List.range n).flatMap (fun j => leBytes 4 (if e.sees i (t0 + j) then 0 else f32NegInf))
    pure { dp, undef := wr, writes := [deviceWrites ((List.range (e.new * g)).map (fun r => (dst + r * pitch, row (r / g))))] }

/-- KV_POS (R173, R502): each valid batch row's position as INT32. -/
def kvPos (t : Nat) (dp : DataPlane) (q : QEntry) : EngineM EngineEffect := do
  let pitch := fld q.desc 16 4
  let dst := fld q.desc 24 8
  let tb ← atIssue (readTable dp (dp.cls t) (some t) (fld q.desc 0 8))
  require stShapeInvalid (pitch % 16 = 0 && 4 ≤ pitch)
  atIssue (ownStoreCheck t .write (rowRanges dst pitch tb.span 4))
  let writes := tb.entries.flatMap (fun e => (List.range e.new).map (fun i =>
    (dst + (e.start + i) * pitch, leBytes 4 (e.position i))))
  pure { dp, undef := writes.map (fun w => (w.1, 4)), writes := [deviceWrites writes] }

/-- KV_MASK. -/
def execKvMask (t v : Nat) (s : State) : Out :=
  s.work (fun env dp => runVec env dp t v (fun q => q.op = 3) (kvMask t))

/-- KV_POS. -/
def execKvPos (t v : Nat) (s : State) : Out :=
  s.work (fun env dp => runVec env dp t v (fun q => q.op = 4) (kvPos t))

end Sys2Proof.Machine
end

