-- ==== Sys2Proof/Machine/Dispatch.lean ====
section
/-! DEFINITION. The one place that maps a command to its meaning: one arm for each constructor of Instr. -/

namespace Sys2Proof.Machine

/-- The effect of a command on everything but the queue of waiting commands. -/
def exec (i : Instr) (s : State) : Host.Outcome State Fault Refusal :=
  match i with
  | .alu c op w32 rd rs1 rs2 => Sys2Proof.Machine.execAlu c op w32 rd rs1 rs2 s
  | .aluImmediate c op w32 rd rs1 imm => Sys2Proof.Machine.execAluImmediate c op w32 rd rs1 imm s
  | .lui c high rd imm => Sys2Proof.Machine.execLui c high rd imm s
  | .load c width vol sgn rd addr => Sys2Proof.Machine.execLoad c width vol sgn rd addr s
  | .store c width rs addr => Sys2Proof.Machine.execStore c width rs addr s
  | .branch c cond rs1 rs2 off => Sys2Proof.Machine.execBranch c cond rs1 rs2 off s
  | .jal c rd off => Sys2Proof.Machine.execJal c rd off s
  | .jalr c rd rs1 => Sys2Proof.Machine.execJalr c rd rs1 s
  | .atomicSwap a => Sys2Proof.Machine.execAtomicSwap a s
  | .atomicCas a => Sys2Proof.Machine.execAtomicCas a s
  | .atomicAdd a => Sys2Proof.Machine.execAtomicAdd a s
  | .atomicAnd a => Sys2Proof.Machine.execAtomicAnd a s
  | .atomicOr a => Sys2Proof.Machine.execAtomicOr a s
  | .atomicXor a => Sys2Proof.Machine.execAtomicXor a s
  | .atomicSmin a => Sys2Proof.Machine.execAtomicSmin a s
  | .atomicSmax a => Sys2Proof.Machine.execAtomicSmax a s
  | .atomicUmin a => Sys2Proof.Machine.execAtomicUmin a s
  | .atomicUmax a => Sys2Proof.Machine.execAtomicUmax a s
  | .atomicFadd a => Sys2Proof.Machine.execAtomicFadd a s
  | .atomicLoad a => Sys2Proof.Machine.execAtomicLoad a s
  | .fenceAcquire c sc => Sys2Proof.Machine.execFenceAcquire c sc s
  | .fenceRelease c sc => Sys2Proof.Machine.execFenceRelease c sc s
  | .fenceFull c sc => Sys2Proof.Machine.execFenceFull c sc s
  | .fp32Scalar c op rd rs1 rs2 rs3 => Sys2Proof.Machine.execFp32Scalar c op rd rs1 rs2 rs3 s
  | .issue c rs1 rs2 res op eng => Sys2Proof.Machine.execIssue c rs1 rs2 res op eng s
  | .issueStallResume c => Sys2Proof.Machine.execIssueStallResume c s
  | .tokwait c t => Sys2Proof.Machine.execTokwait c t s
  | .toksig c t => Sys2Proof.Machine.execToksig c t s
  | .evsig c e v => Sys2Proof.Machine.execEvsig c e v s
  | .evwait c e v => Sys2Proof.Machine.execEvwait c e v s
  | .evwaitPoll c => Sys2Proof.Machine.execEvwaitPoll c s
  | .rdsys c rd n0 => Sys2Proof.Machine.execRdsys c rd n0 s
  | .nextblk c rd => Sys2Proof.Machine.execNextblk c rd s
  | .call c rd entry => Sys2Proof.Machine.execCall c rd entry s
  | .trap c code => Sys2Proof.Machine.execTrap c code s
  | .exit c => Sys2Proof.Machine.execExit c s
  | .coreWatchdog c => Sys2Proof.Machine.execCoreWatchdog c s
  | .coreEcc c => Sys2Proof.Machine.execCoreEcc c s
  | .matmul t => Sys2Proof.Machine.execMatmul t s
  | .patchTestAudit t => Sys2Proof.Machine.execPatchTestAudit t s
  | .convert t => Sys2Proof.Machine.execConvert t s
  | .flush t => Sys2Proof.Machine.execFlush t s
  | .adapt t => Sys2Proof.Machine.execAdapt t s
  | .kvPut t => Sys2Proof.Machine.execKvPut t s
  | .vopAdd t v => Sys2Proof.Machine.execVopAdd t v s
  | .vopSub t v => Sys2Proof.Machine.execVopSub t v s
  | .vopMul t v => Sys2Proof.Machine.execVopMul t v s
  | .vopFma t v => Sys2Proof.Machine.execVopFma t v s
  | .vopMin t v => Sys2Proof.Machine.execVopMin t v s
  | .vopMax t v => Sys2Proof.Machine.execVopMax t v s
  | .vopAbs t v => Sys2Proof.Machine.execVopAbs t v s
  | .vopNeg t v => Sys2Proof.Machine.execVopNeg t v s
  | .copysign t v => Sys2Proof.Machine.execCopysign t v s
  | .cmpEq t v => Sys2Proof.Machine.execCmpEq t v s
  | .cmpNe t v => Sys2Proof.Machine.execCmpNe t v s
  | .cmpLt t v => Sys2Proof.Machine.execCmpLt t v s
  | .cmpLe t v => Sys2Proof.Machine.execCmpLe t v s
  | .cmpUnord t v => Sys2Proof.Machine.execCmpUnord t v s
  | .sel t v => Sys2Proof.Machine.execSel t v s
  | .classTest t v => Sys2Proof.Machine.execClassTest t v s
  | .int32Add t v => Sys2Proof.Machine.execInt32Add t v s
  | .int32Sub t v => Sys2Proof.Machine.execInt32Sub t v s
  | .int32Mul t v => Sys2Proof.Machine.execInt32Mul t v s
  | .int32And t v => Sys2Proof.Machine.execInt32And t v s
  | .int32Or t v => Sys2Proof.Machine.execInt32Or t v s
  | .int32Xor t v => Sys2Proof.Machine.execInt32Xor t v s
  | .int32Shl t v => Sys2Proof.Machine.execInt32Shl t v s
  | .int32Shr t v => Sys2Proof.Machine.execInt32Shr t v s
  | .int32Sar t v => Sys2Proof.Machine.execInt32Sar t v s
  | .int32Min t v => Sys2Proof.Machine.execInt32Min t v s
  | .int32Max t v => Sys2Proof.Machine.execInt32Max t v s
  | .cvt t v => Sys2Proof.Machine.execCvt t v s
  | .cvtF2i t v => Sys2Proof.Machine.execCvtF2i t v s
  | .cvtI2f t v => Sys2Proof.Machine.execCvtI2f t v s
  | .rsum t v => Sys2Proof.Machine.execRsum t v s
  | .rsumsq t v => Sys2Proof.Machine.execRsumsq t v s
  | .rmax t v => Sys2Proof.Machine.execRmax t v s
  | .rmin t v => Sys2Proof.Machine.execRmin t v s
  | .bcast t v => Sys2Proof.Machine.execBcast t v s
  | .func t v => Sys2Proof.Machine.execFunc t v s
  | .softmax t v => Sys2Proof.Machine.execSoftmax t v s
  | .osmStep t v => Sys2Proof.Machine.execOsmStep t v s
  | .osmFinish t v => Sys2Proof.Machine.execOsmFinish t v s
  | .lnorm t v => Sys2Proof.Machine.execLnorm t v s
  | .rmsnorm t v => Sys2Proof.Machine.execRmsnorm t v s
  | .tblload t v => Sys2Proof.Machine.execTblload t v s
  | .tableShadowSwap t slot => Sys2Proof.Machine.execTableShadowSwap t slot s
  | .kvMask t v => Sys2Proof.Machine.execKvMask t v s
  | .kvPos t v => Sys2Proof.Machine.execKvPos t v s
  | .copy t e => Sys2Proof.Machine.execCopy t e s
  | .dmaTimeout t e chunks => Sys2Proof.Machine.execDmaTimeout t e chunks s
  | .hostDmaError t e x => Sys2Proof.Machine.execHostDmaError t e x s
  | .kvPoolInit t => Sys2Proof.Machine.execKvPoolInit t s
  | .kvCreate t => Sys2Proof.Machine.execKvCreate t s
  | .kvFork t => Sys2Proof.Machine.execKvFork t s
  | .kvReserve t => Sys2Proof.Machine.execKvReserve t s
  | .kvCommit t => Sys2Proof.Machine.execKvCommit t s
  | .kvTruncate t => Sys2Proof.Machine.execKvTruncate t s
  | .kvFree t => Sys2Proof.Machine.execKvFree t s
  | .kvPageRelease pool => Sys2Proof.Machine.execKvPageRelease pool s
  | .engineComplete t e => Sys2Proof.Machine.execEngineComplete t e s
  | .engineAbort t e => Sys2Proof.Machine.execEngineAbort t e s
  | .enginePreemptionStop t e => Sys2Proof.Machine.execEnginePreemptionStop t e s
  | .tileFaultReport t => Sys2Proof.Machine.execTileFaultReport t s
  | .tileShareEnd t => Sys2Proof.Machine.execTileShareEnd t s
  | .completionTokenCombine router q seq => Sys2Proof.Machine.execCompletionTokenCombine router q seq s
  | .queueCreate fn q => Sys2Proof.Machine.execQueueCreate fn q s
  | .queueDestroy fn q => Sys2Proof.Machine.execQueueDestroy fn q s
  | .queueAbort fn q => Sys2Proof.Machine.execQueueAbort fn q s
  | .abortFinish q => Sys2Proof.Machine.execAbortFinish q s
  | .destroyFinish q => Sys2Proof.Machine.execDestroyFinish q s
  | .destroyEscalation q => Sys2Proof.Machine.execDestroyEscalation q s
  | .qdbTail fn q v => Sys2Proof.Machine.execQdbTail fn q v s
  | .qdbCqhead fn q v => Sys2Proof.Machine.execQdbCqhead fn q v s
  | .recordFetch q => Sys2Proof.Machine.execRecordFetch q s
  | .launchWaitsMet q seq => Sys2Proof.Machine.execLaunchWaitsMet q seq s
  | .launchDispatch q seq => Sys2Proof.Machine.execLaunchDispatch q seq s
  | .hubRecordHandoff q seq => Sys2Proof.Machine.execHubRecordHandoff q seq s
  | .timedStagingOpen q seq => Sys2Proof.Machine.execTimedStagingOpen q seq s
  | .timedCoreStart t c => Sys2Proof.Machine.execTimedCoreStart t c s
  | .tileLaunchEntry t => Sys2Proof.Machine.execTileLaunchEntry t s
  | .programMulticast t => Sys2Proof.Machine.execProgramMulticast t s
  | .collectorToken q seq src => Sys2Proof.Machine.execCollectorToken q seq src s
  | .launchCollected q seq => Sys2Proof.Machine.execLaunchCollected q seq s
  | .evSignal fn v => Sys2Proof.Machine.execEvSignal fn v s
  | .evErrClear fn e v => Sys2Proof.Machine.execEvErrClear fn e v s
  | .actSyncGo => Sys2Proof.Machine.execActSyncGo s
  | .actSyncDrainDone => Sys2Proof.Machine.execActSyncDrainDone s
  | .patrolScrub addr r => Sys2Proof.Machine.execPatrolScrub addr r s
  | .cacheLineFill f => Sys2Proof.Machine.execCacheLineFill f s
  | .remoteRequest r => Sys2Proof.Machine.execRemoteRequest r s
  | .remoteResponse home tag status x => Sys2Proof.Machine.execRemoteResponse home tag status x s
  | .fabricTimeout home tag => Sys2Proof.Machine.execFabricTimeout home tag s
  | .partEnable p => Sys2Proof.Machine.execPartEnable p s
  | .partDisable p => Sys2Proof.Machine.execPartDisable p s
  | .partDrain p => Sys2Proof.Machine.execPartDrain p s
  | .functionLevelReset fn => Sys2Proof.Machine.execFunctionLevelReset fn s
  | .vfEnableClear => Sys2Proof.Machine.execVfEnableClear s
  | .drainHardStop p => Sys2Proof.Machine.execDrainHardStop p s
  | .hardStopTimeout p => Sys2Proof.Machine.execHardStopTimeout p s
  | .drainRevokeScrub p => Sys2Proof.Machine.execDrainRevokeScrub p s
  | .partitionHbmScrubDone p => Sys2Proof.Machine.execPartitionHbmScrubDone p s
  | .meterIntervalBoundary eMod peakW adcBad => Sys2Proof.Machine.execMeterIntervalBoundary eMod peakW adcBad s
  | .meterRecordSign => Sys2Proof.Machine.execMeterRecordSign s
  | .meterAck v => Sys2Proof.Machine.execMeterAck v s
  | .meterSel fn v => Sys2Proof.Machine.execMeterSel fn v s
  | .arpRequest port vlan ip mac => Sys2Proof.Machine.execArpRequest port vlan ip mac s
  | .neighborSolicitation port vlan ip mac => Sys2Proof.Machine.execNeighborSolicitation port vlan ip mac s
  | .icmpEcho port vlan ip mac payload => Sys2Proof.Machine.execIcmpEcho port vlan ip mac payload s
  | .frameDrop port => Sys2Proof.Machine.execFrameDrop port s
  | .rdmaWrite qp key va data => Sys2Proof.Machine.execRdmaWrite qp key va data s
  | .rdmaWriteWithImmediate qp key va data imm => Sys2Proof.Machine.execRdmaWriteWithImmediate qp key va data imm s
  | .rdmaRead qp key va len => Sys2Proof.Machine.execRdmaRead qp key va len s
  | .send qp data => Sys2Proof.Machine.execSend qp data s
  | .sendWithImmediate qp data imm => Sys2Proof.Machine.execSendWithImmediate qp data imm s
  | .rdmaAcknowledgement qp => Sys2Proof.Machine.execRdmaAcknowledgement qp s
  | .ecnMarkedPacket qp => Sys2Proof.Machine.execEcnMarkedPacket qp s
  | .congestionNotification qp => Sys2Proof.Machine.execCongestionNotification qp s
  | .rateRecovery qp => Sys2Proof.Machine.execRateRecovery qp s
  | .pfcPause port prio on => Sys2Proof.Machine.execPfcPause port prio on s
  | .qpCreate fn => Sys2Proof.Machine.execQpCreate fn s
  | .qpModify fn => Sys2Proof.Machine.execQpModify fn s
  | .qpDestroy fn => Sys2Proof.Machine.execQpDestroy fn s
  | .netSrctabReread port v => Sys2Proof.Machine.execNetSrctabReread port v s
  | .nvmeofConnect q seq accepted blockLog mdts => Sys2Proof.Machine.execNvmeofConnect q seq accepted blockLog mdts s
  | .nvmeofRead q seq => Sys2Proof.Machine.execNvmeofRead q seq s
  | .nvmeofWrite q seq => Sys2Proof.Machine.execNvmeofWrite q seq s
  | .nvmeofDisconnect q seq => Sys2Proof.Machine.execNvmeofDisconnect q seq s
  | .nvmeCommandCompletion ctl cid status data => Sys2Proof.Machine.execNvmeCommandCompletion ctl cid status data s
  | .nvmeTimeout ctl cid => Sys2Proof.Machine.execNvmeTimeout ctl cid s
  | .keepAlive ctl => Sys2Proof.Machine.execKeepAlive ctl s
  | .serveStart fn => Sys2Proof.Machine.execServeStart fn s
  | .serveStop fn => Sys2Proof.Machine.execServeStop fn s
  | .serveUpdate fn => Sys2Proof.Machine.execServeUpdate fn s
  | .serviceStepForm p => Sys2Proof.Machine.execServiceStepForm p s
  | .serviceStepFinish p => Sys2Proof.Machine.execServiceStepFinish p s
  | .reserveExhaustedRetry p => Sys2Proof.Machine.execReserveExhaustedRetry p s
  | .draftFailureRetry p => Sys2Proof.Machine.execDraftFailureRetry p s
  | .sample q seq => Sys2Proof.Machine.execSample q seq s
  | .linkTraining n0 r => Sys2Proof.Machine.execLinkTraining n0 r s
  | .identityFlit n0 id => Sys2Proof.Machine.execIdentityFlit n0 id s
  | .flitReceive n0 f => Sys2Proof.Machine.execFlitReceive n0 f s
  | .linkNak n0 lastGood => Sys2Proof.Machine.execLinkNak n0 lastGood s
  | .frameLockLoss n0 => Sys2Proof.Machine.execFrameLockLoss n0 s
  | .ackTimeout n0 => Sys2Proof.Machine.execAckTimeout n0 s
  | .linkRetryTimer n0 => Sys2Proof.Machine.execLinkRetryTimer n0 s
  | .idleCreditReturn n0 => Sys2Proof.Machine.execIdleCreditReturn n0 s
  | .release n0 id => Sys2Proof.Machine.execRelease n0 id s
  | .routeRewrite at_ rs => Sys2Proof.Machine.execRouteRewrite at_ rs s
  | .linkDisable n0 => Sys2Proof.Machine.execLinkDisable n0 s
  | .managerHeartbeat r => Sys2Proof.Machine.execManagerHeartbeat r s
  | .heartbeatMiss r => Sys2Proof.Machine.execHeartbeatMiss r s
  | .managerReport r => Sys2Proof.Machine.execManagerReport r s
  | .plumbExchange n0 => Sys2Proof.Machine.execPlumbExchange n0 s
  | .plumbExchangeFlit n0 t1 t2 t3 t4 depth aligned parentDev => Sys2Proof.Machine.execPlumbExchangeFlit n0 t1 t2 t3 t4 depth aligned parentDev s
  | .timePps => Sys2Proof.Machine.execTimePps s
  | .timeTod msg => Sys2Proof.Machine.execTimeTod msg s
  | .plumbHoldoverExpiry => Sys2Proof.Machine.execPlumbHoldoverExpiry s
  | .grandmasterTakeover => Sys2Proof.Machine.execGrandmasterTakeover s
  | .powerRampStart q seq drawW => Sys2Proof.Machine.execPowerRampStart q seq drawW s
  | .fillerRelease drawW => Sys2Proof.Machine.execFillerRelease drawW s
  | .groupCreate q seq => Sys2Proof.Machine.execGroupCreate q seq s
  | .feedIdResponse gnum member feed => Sys2Proof.Machine.execFeedIdResponse gnum member feed s
  | .feedQueryTimeout gnum => Sys2Proof.Machine.execFeedQueryTimeout gnum s
  | .groupDestroy q seq => Sys2Proof.Machine.execGroupDestroy q seq s
  | .groupRemap q seq => Sys2Proof.Machine.execGroupRemap q seq s
  | .groupRemapApply => Sys2Proof.Machine.execGroupRemapApply s
  | .allReduce q seq => Sys2Proof.Machine.execAllReduce q seq s
  | .reduceScatter q seq => Sys2Proof.Machine.execReduceScatter q seq s
  | .allGather q seq => Sys2Proof.Machine.execAllGather q seq s
  | .broadcast q seq => Sys2Proof.Machine.execBroadcast q seq s
  | .allToAll q seq => Sys2Proof.Machine.execAllToAll q seq s
  | .collectiveChunk c => Sys2Proof.Machine.execCollectiveChunk c s
  | .chunkAck gnum opseq peer => Sys2Proof.Machine.execChunkAck gnum opseq peer s
  | .chunkResend gnum opseq => Sys2Proof.Machine.execChunkResend gnum opseq s
  | .linkLoss gnum => Sys2Proof.Machine.execLinkLoss gnum s
  | .collTimeout gnum => Sys2Proof.Machine.execCollTimeout gnum s
  | .abortNotice gnum opseq cause => Sys2Proof.Machine.execAbortNotice gnum opseq cause s
  | .snapCopy q seq => Sys2Proof.Machine.execSnapCopy q seq s
  | .snapSend q seq => Sys2Proof.Machine.execSnapSend q seq s
  | .snapshotStream gnum step rank len digest data => Sys2Proof.Machine.execSnapshotStream gnum step rank len digest data s
  | .parityAck gnum step parity => Sys2Proof.Machine.execParityAck gnum step parity s
  | .stepRecord q seq => Sys2Proof.Machine.execStepRecord q seq s
  | .reconstruct q seq slots => Sys2Proof.Machine.execReconstruct q seq slots s
  | .restore q seq => Sys2Proof.Machine.execRestore q seq s
  | .snapTauUpdate tauMs at_ => Sys2Proof.Machine.execSnapTauUpdate tauMs at_ s
  | .moduleLossReport dev => Sys2Proof.Machine.execModuleLossReport dev s
  | .pwrEnAssert => Sys2Proof.Machine.execPwrEnAssert s
  | .pwrGoodAssert railsOk => Sys2Proof.Machine.execPwrGoodAssert railsOk s
  | .pwrEnDeassert => Sys2Proof.Machine.execPwrEnDeassert s
  | .pwrEnHoldExpiry => Sys2Proof.Machine.execPwrEnHoldExpiry s
  | .vinUndervoltage mv => Sys2Proof.Machine.execVinUndervoltage mv s
  | .vinOvervoltage mv => Sys2Proof.Machine.execVinOvervoltage mv s
  | .modResetNAssert ns => Sys2Proof.Machine.execModResetNAssert ns s
  | .modResetNDeassert => Sys2Proof.Machine.execModResetNDeassert s
  | .perstNAssert => Sys2Proof.Machine.execPerstNAssert s
  | .perstNDeassert => Sys2Proof.Machine.execPerstNDeassert s
  | .thermalAlert sensor centiC => Sys2Proof.Machine.execThermalAlert sensor centiC s
  | .thermalThrottle sensor centiC => Sys2Proof.Machine.execThermalThrottle sensor centiC s
  | .thermalTrip sensor centiC => Sys2Proof.Machine.execThermalTrip sensor centiC s
  | .thermTripRelease => Sys2Proof.Machine.execThermTripRelease s
  | .d2dPortFailure port => Sys2Proof.Machine.execD2dPortFailure port s
  | .clockGlideEnd => Sys2Proof.Machine.execClockGlideEnd s
  | .bringupStart romOk fusesOk => Sys2Proof.Machine.execBringupStart romOk fusesOk s
  | .configurationVerify => Sys2Proof.Machine.execConfigurationVerify s
  | .interfaceTraining r => Sys2Proof.Machine.execInterfaceTraining r s
  | .bistSlice r => Sys2Proof.Machine.execBistSlice r s
  | .hbmMarchTest failed repaired => Sys2Proof.Machine.execHbmMarchTest failed repaired s
  | .thermalPause hottestCentiC elapsedMs => Sys2Proof.Machine.execThermalPause hottestCentiC elapsedMs s
  | .reconciliation => Sys2Proof.Machine.execReconciliation s
  | .firmwareDelivery crcFail => Sys2Proof.Machine.execFirmwareDelivery crcFail s
  | .knownAnswerRun r => Sys2Proof.Machine.execKnownAnswerRun r s
  | .loadRun tileFail => Sys2Proof.Machine.execLoadRun tileFail s
  | .bringupOutcome ms => Sys2Proof.Machine.execBringupOutcome ms s
  | .bringupWatchdog => Sys2Proof.Machine.execBringupWatchdog s
  | .recovWriteChunk => Sys2Proof.Machine.execRecovWriteChunk s
  | .recovCommit => Sys2Proof.Machine.execRecovCommit s
  | .deferredReset => Sys2Proof.Machine.execDeferredReset s
  | .getCerts m => Sys2Proof.Machine.execGetCerts m s
  | .getAttest m => Sys2Proof.Machine.execGetAttest m s
  | .openChallenge m r => Sys2Proof.Machine.execOpenChallenge m r s
  | .openResponse m r pf => Sys2Proof.Machine.execOpenResponse m r pf s
  | .close m => Sys2Proof.Machine.execClose m s
  | .readMode m => Sys2Proof.Machine.execReadMode m s
  | .setMode m chg => Sys2Proof.Machine.execSetMode m chg s
  | .readTelem m => Sys2Proof.Machine.execReadTelem m s
  | .meterRead m recSeq => Sys2Proof.Machine.execMeterRead m recSeq s
  | .imageBegin m => Sys2Proof.Machine.execImageBegin m s
  | .imageWrite m off => Sys2Proof.Machine.execImageWrite m off s
  | .imageCommit m => Sys2Proof.Machine.execImageCommit m s
  | .calWrite m v => Sys2Proof.Machine.execCalWrite m v s
  | .restoreFactory m => Sys2Proof.Machine.execRestoreFactory m s
  | .reset m => Sys2Proof.Machine.execReset m s
  | .enrollOwner m newKey token => Sys2Proof.Machine.execEnrollOwner m newKey token s
  | .lcTransition m target => Sys2Proof.Machine.execLcTransition m target s
  | .testUnlock m => Sys2Proof.Machine.execTestUnlock m s
  | .flogClear m => Sys2Proof.Machine.execFlogClear m s
  | .nonceExpiry iface => Sys2Proof.Machine.execNonceExpiry iface s
  | .sessionIdleTimeout session => Sys2Proof.Machine.execSessionIdleTimeout session s
  | .entdaa addr won => Sys2Proof.Machine.execEntdaa addr won s
  | .rstdaa => Sys2Proof.Machine.execRstdaa s
  | .setEndpointId eid => Sys2Proof.Machine.execSetEndpointId eid s
  | .getTid => Sys2Proof.Machine.execGetTid s
  | .getPldmVersion type => Sys2Proof.Machine.execGetPldmVersion type s
  | .getPldmTypes => Sys2Proof.Machine.execGetPldmTypes s
  | .getPldmCommands type => Sys2Proof.Machine.execGetPldmCommands type s
  | .getPdr handle => Sys2Proof.Machine.execGetPdr handle s
  | .getSensorReading id => Sys2Proof.Machine.execGetSensorReading id s
  | .getStateSensorReadings id => Sys2Proof.Machine.execGetStateSensorReadings id s
  | .bypass => Sys2Proof.Machine.execBypass s
  | .idcode => Sys2Proof.Machine.execIdcode s
  | .samplePreload boundary => Sys2Proof.Machine.execSamplePreload boundary s
  | .extest => Sys2Proof.Machine.execExtest s
  | .extestPulse => Sys2Proof.Machine.execExtestPulse s
  | .extestTrain => Sys2Proof.Machine.execExtestTrain s
  | .testEngineInstruction ir => Sys2Proof.Machine.execTestEngineInstruction ir s
  | .counterReadClear fn off => Sys2Proof.Machine.execCounterReadClear fn off s
  | .counterLowWordRead fn off => Sys2Proof.Machine.execCounterLowWordRead fn off s
  | .registerWrite sp fn off width v => Sys2Proof.Machine.execRegisterWrite sp fn off width v s
  | .switchOnThreshold mv => Sys2Proof.Machine.execSwitchOnThreshold mv s
  | .inputControllerPowerOff => Sys2Proof.Machine.execInputControllerPowerOff s
  | .pfBar2DebugWindowAccess addr len wdata => Sys2Proof.Machine.execPfBar2DebugWindowAccess addr len wdata s
  | .pcieAtomicopRequest fn addr => Sys2Proof.Machine.execPcieAtomicopRequest fn addr s
  | .powerCapHold drawW mhz => Sys2Proof.Machine.execPowerCapHold drawW mhz s
  | .qpAckTimeOut qp => Sys2Proof.Machine.execQpAckTimeOut qp s

end Sys2Proof.Machine
end

