-- ==== Sys2Proof/Safety.lean ====
section
/-! DEFINITION. What claims about the machine are stated in terms of: the canonical form of memories, the invariants that
every step keeps, the conditions under which a command has its own effect, and reference results that are written from
the spec beside the machine's own. -/

namespace Sys2Proof.Machine

/-! ### Invariants -/

/-- The canonical form of a memory: rising addresses and no listed byte equal to what an unlisted address reads as. -/
def Memory.wf (m : List Host.Cell) : Bool := SMap.wf 0 m

/-- The canonical form of the memories, their poison marks, and the EP marks of host memory. -/
def MemSys.wf (m : MemSys) : Bool :=
  Memory.wf m.dev && Memory.wf m.host && Memory.wf m.far && SMap.wf false m.poison && SMap.wf false m.hostEp

/-- What holds of the security processor (R447, R448): at most four sessions are open, their numbers are distinct and were
given out before, and the flash lock is held by an open session. -/
def Security.inv (x : Security) : Bool :=
  x.sessions.length ≤ 4 && decide (x.sessions.map (·.id)).Nodup && x.sessions.all (fun y => y.id < x.nextId) &&
  (match x.lock with
    | none => true
    | some id => x.sessions.any (fun y => y.id = id))

/-- What every step keeps of the management plane: the security processor's invariant, the canonical form of the flash, and
the widths of the management bus's dynamic address and endpoint ID (R452). -/
def State.managed (s : State) : Bool :=
  s.mg.sec.inv && Memory.wf s.mg.flash && s.mg.bus.dynAddr.all (fun a => a < 128) && s.mg.bus.eid < 256

/-! ### Reset -/

/-- `t` is `s` after a whole-module reset into boot state `st` (R2, R3, R407): everything as after reset but fuses, flash, the
calibration regions, the sensors, and what lies outside the module. -/
structure ResetOf (s t : State) (st : BootSt) : Prop where
  boot : t.mg.boot = { Boot.init with st := st }
  dp : t.dp = { DataPlane.reset with
    mem := { MemSys.reset with
      host := s.dp.mem.host, hostEp := s.dp.mem.hostEp, hostRefused := s.dp.mem.hostRefused,
      far := s.dp.mem.far, farRefused := s.dp.mem.farRefused }
    free := s.dp.free, pcieDown := s.mg.pins.perstN }
  fb : t.fb = Fabric.reset
  sec : t.mg.sec = Security.reset
  bus : t.mg.bus = Bus.reset
  fuses : t.mg.fuses = s.mg.fuses
  flash : t.mg.flash = s.mg.flash
  regions : t.mg.regions = s.mg.regions
  pending : t.pending = s.pending

/-- Power has been lost (R407, R490). -/
def PowerLost (s t : State) : Prop := ResetOf s t .off ∧ t.mg.pins.pwrGood = false ∧ t.mg.pins.switchOn = false

/-! ### Classes of commands -/

/-- Commands of the data plane: they act on it alone, and only while the module serves work (R18, R433). -/
def ofDataPlane : Instr → Bool
  | .alu .. | .aluImmediate .. | .lui .. | .load .. | .store .. | .branch .. | .jal .. | .jalr .. | .atomicSwap .. | .atomicCas ..
  | .atomicAdd .. | .atomicAnd .. | .atomicOr .. | .atomicXor .. | .atomicSmin .. | .atomicSmax .. | .atomicUmin ..
  | .atomicUmax .. | .atomicFadd .. | .atomicLoad .. | .fenceAcquire .. | .fenceRelease .. | .fenceFull .. | .fp32Scalar ..
  | .issue .. | .issueStallResume .. | .tokwait .. | .toksig .. | .evsig .. | .evwait .. | .evwaitPoll .. | .rdsys ..
  | .nextblk .. | .call .. | .trap .. | .exit .. | .coreWatchdog .. | .coreEcc .. | .matmul .. | .patchTestAudit .. | .convert ..
  | .flush .. | .adapt .. | .kvPut .. | .vopAdd .. | .vopSub .. | .vopMul .. | .vopFma .. | .vopMin .. | .vopMax .. | .vopAbs ..
  | .vopNeg .. | .copysign .. | .cmpEq .. | .cmpNe .. | .cmpLt .. | .cmpLe .. | .cmpUnord .. | .sel .. | .classTest ..
  | .int32Add .. | .int32Sub .. | .int32Mul .. | .int32And .. | .int32Or .. | .int32Xor .. | .int32Shl .. | .int32Shr ..
  | .int32Sar .. | .int32Min .. | .int32Max .. | .cvt .. | .cvtF2i .. | .cvtI2f .. | .rsum .. | .rsumsq .. | .rmax .. | .rmin ..
  | .bcast .. | .func .. | .softmax .. | .osmStep .. | .osmFinish .. | .lnorm .. | .rmsnorm .. | .tblload ..
  | .tableShadowSwap .. | .kvMask .. | .kvPos .. | .copy .. | .dmaTimeout .. | .hostDmaError .. | .kvPoolInit .. | .kvCreate ..
  | .kvFork .. | .kvReserve .. | .kvCommit .. | .kvTruncate .. | .kvFree .. | .kvPageRelease .. | .engineComplete ..
  | .tileFaultReport .. | .tileShareEnd .. | .completionTokenCombine .. | .queueCreate .. | .queueDestroy .. | .queueAbort ..
  | .abortFinish .. | .destroyFinish .. | .destroyEscalation .. | .qdbTail .. | .qdbCqhead .. | .recordFetch ..
  | .launchWaitsMet .. | .launchDispatch .. | .hubRecordHandoff .. | .timedStagingOpen .. | .timedCoreStart ..
  | .tileLaunchEntry .. | .programMulticast .. | .collectorToken .. | .evSignal .. | .evErrClear .. | .actSyncGo
  | .actSyncDrainDone | .cacheLineFill .. | .remoteRequest .. | .remoteResponse .. | .fabricTimeout .. | .partEnable ..
  | .partDisable .. | .partDrain .. | .drainHardStop .. | .drainRevokeScrub .. | .partitionHbmScrubDone .. | .arpRequest ..
  | .neighborSolicitation .. | .icmpEcho .. | .rdmaWrite .. | .rdmaWriteWithImmediate .. | .rdmaRead .. | .send ..
  | .sendWithImmediate .. | .rdmaAcknowledgement .. | .ecnMarkedPacket .. | .congestionNotification .. | .rateRecovery ..
  | .pfcPause .. | .qpCreate .. | .qpModify .. | .qpDestroy .. | .netSrctabReread .. | .nvmeofConnect .. | .nvmeofRead ..
  | .nvmeofWrite .. | .nvmeofDisconnect .. | .nvmeCommandCompletion .. | .nvmeTimeout .. | .keepAlive .. | .serveStart ..
  | .serveStop .. | .serveUpdate .. | .serviceStepForm .. | .serviceStepFinish .. | .reserveExhaustedRetry ..
  | .draftFailureRetry .. | .sample .. | .groupCreate .. | .feedIdResponse .. | .feedQueryTimeout .. | .groupDestroy ..
  | .groupRemap .. | .snapCopy .. | .stepRecord .. | .reconstruct .. | .restore .. | .pfBar2DebugWindowAccess .. | .qpAckTimeOut .. => true
  | _ => false

/-- Commands of the hub's own units, which act from bring-up on, and of the collective engine, which also sends on links:
like the data plane's, they stop with a module-fatal fault (R18). -/
def ofHub : Instr → Bool
  | .engineAbort .. | .enginePreemptionStop .. | .launchCollected .. | .allReduce .. | .reduceScatter .. | .allGather ..
  | .broadcast .. | .allToAll .. | .collectiveChunk .. | .chunkAck .. | .chunkResend .. | .linkLoss .. | .collTimeout ..
  | .abortNotice .. | .groupRemapApply | .snapSend .. | .snapshotStream .. | .parityAck .. | .patrolScrub .. | .functionLevelReset .. | .vfEnableClear | .hardStopTimeout ..
  | .meterIntervalBoundary .. | .meterRecordSign | .meterAck .. | .meterSel .. | .frameDrop .. | .linkTraining ..
  | .identityFlit .. | .flitReceive .. | .linkNak .. | .frameLockLoss .. | .ackTimeout .. | .linkRetryTimer ..
  | .idleCreditReturn .. | .release .. | .routeRewrite .. | .linkDisable .. | .managerHeartbeat .. | .heartbeatMiss ..
  | .managerReport .. | .plumbExchange .. | .plumbExchangeFlit .. | .timePps | .timeTod .. | .plumbHoldoverExpiry
  | .grandmasterTakeover | .powerRampStart .. | .fillerRelease .. | .snapTauUpdate .. | .moduleLossReport .. | .thermalAlert ..
  | .thermalThrottle .. | .d2dPortFailure .. | .clockGlideEnd | .powerCapHold .. | .counterReadClear ..
  | .counterLowWordRead .. | .registerWrite .. | .pcieAtomicopRequest .. | .nonceExpiry .. | .sessionIdleTimeout .. => true
  | _ => false

/-! ### When a command has its own effect -/

/-- A core is about to execute a word that spells an instruction, as far as the spec places its fields (R180, R202). -/
structure AtWord (s : State) (c : CoreId) (spells : Nat → Bool) : Prop where
  serves : s.env.serving = true
  active : coreActive s.dp c = true
  running : (s.dp.core c).st = .running
  fetch : fetchOk c (s.dp.core c).pc = true
  defined : wordDefined c (fetchWord (s.dp.core c)) = true
  word : spells (fetchWord (s.dp.core c)) = true

/-- The core that executes an instruction command. -/
def coreOf : Instr → Option CoreId
  | .alu c .. | .aluImmediate c .. | .lui c .. | .load c .. | .store c .. | .branch c .. | .jal c .. | .jalr c ..
  | .fenceAcquire c _ | .fenceRelease c _ | .fenceFull c _ | .fp32Scalar c .. | .issue c .. | .tokwait c _ | .toksig c _
  | .evsig c .. | .evwait c .. | .rdsys c .. | .nextblk c _ | .call c .. | .trap c _ | .exit c => some c
  | .atomicSwap a | .atomicCas a | .atomicAdd a | .atomicAnd a | .atomicOr a | .atomicXor a | .atomicSmin a | .atomicSmax a
  | .atomicUmin a | .atomicUmax a | .atomicFadd a | .atomicLoad a => some a.core
  | _ => none

/-- Engine `e` of tile `t` is idle and its head instruction `h` holds its tokens; `r` is the rest of its queue (R193). -/
structure AtHead (s : State) (t e : Nat) (h : QEntry) (r : List QEntry) : Prop where
  serves : s.env.serving = true
  enabled : s.dp.enabled t = true
  running : (s.dp.tile t).phase = .running
  idle : ((s.dp.tile t).engine e).run = none
  head : ((s.dp.tile t).engine e).queue = h :: r
  granted : h.granted = true

/-- The data plane once engine `e` has taken the head from its queue. -/
def State.taken (s : State) (t e : Nat) (r : List QEntry) : DataPlane :=
  s.dp.setTile t ((s.dp.tile t).setEngine e { (s.dp.tile t).engine e with queue := r })

/-- The state once the taken instruction has begun (R193): the engine runs it until it completes, and a reader may already
see some of its writes (R90, R252). -/
def State.started (s : State) (t e : Nat) (h : QEntry) (x : EngineEffect) : State :=
  let b := startRun t h x
  s.setDp (b.1.setTile t (settleTokens s.fb.plumb.ns ((b.1.tile t).setEngine e { (b.1.tile t).engine e with run := some b.2 })))

/-- The state once the taken instruction has been refused or has failed: the tile stops (R203). -/
def State.stopped (s : State) (t e sub : Nat) (r : List QEntry) (h : QEntry) (f : EngineFail) : State :=
  s.setDp (engineFail s.env (f.after ((s.taken t e r).undefine t f.undef)) t e (f.unit.getD sub) h f.fault)

/-- A hub engine of one of the listed GROUP codes holds a record whose OP is the command's and has not begun or ended it
(R269, R270). -/
structure AtHub (s : State) (q seq : Nat) (groups : List Nat) (l : Launch) (op : Nat) : Prop where
  serves : s.env.serving = true
  held : hubHeld s.dp q seq groups = some l
  op : fld l.const 0 1 = op

/-- A message of an open session (R445, R447): the interface carries it, the session was opened there, and SEQ is the
next one. -/
structure InSession (s : State) (m : Msg) (y : Session) : Prop where
  awake : s.awake = true
  up : ifaceUp s m.iface = true
  short : m.payload.length ≤ 4032
  host : m.iface < 2
  known : s.mg.sec.session m.session = some y
  bound : y.iface = m.iface
  next : m.seq = y.seq + 1

/-- The state once a session's command has been accepted: its SEQ is recorded. -/
def State.accepted (s : State) (m : Msg) (y : Session) : State :=
  s.setSec (s.mg.sec.setSession { y with seq := m.seq })

/-! ### Reference results, from the spec -/

/-- Results of the ALU classes of R180 on `w`-bit values; none where the spec states no value (log entry 13). -/
def aluSpec (w : Nat) (op : AluOp) (a b : BitVec w) : Option (BitVec w) :=
  let truth := fun (p : Bool) => some ((Config.truthWord false p).setWidth w)
  match op with
  | .add => some (a + b)
  | .sub => some (a - b)
  | .mul => some (a * b)
  | .div =>
    if b = 0 ∨ (a = BitVec.intMin w ∧ b = -1) ∨ (a.toInt % b.toInt ≠ 0 ∧ (a.toInt < 0 ↔ ¬ b.toInt < 0)) then none
    else some (a.sdiv b)
  | .divu => if b = 0 then none else some (a / b)
  | .sll => some (a <<< (b.toNat % w))
  | .srl => some (a >>> (b.toNat % w))
  | .sra => some (a.sshiftRight (b.toNat % w))
  | .and => some (a &&& b)
  | .or => some (a ||| b)
  | .xor => some (a ^^^ b)
  | .seq => truth (a == b)
  | .slt => truth (a.slt b)
  | .sltu => truth (a.ult b)

/-- Conditions of BRANCH (R180); 6 and 7 are reserved. -/
def branchSpec (cond : Nat) (a b : U64) : Option Bool :=
  match cond with
  | 0 => some (a == b)
  | 1 => some (a != b)
  | 2 => some (a.slt b)
  | 3 => some (b.sle a)
  | 4 => some (a.ult b)
  | 5 => some (b.ule a)
  | _ => none

/-- New values of the integer atomics of R254 on `w`-bit values; none for FADD and LOAD. -/
def atomicSpec (w op : Nat) (old v cmp : BitVec w) : Option (BitVec w) :=
  match op with
  | 0x00 => some v
  | 0x01 => some (if old = cmp then v else old)
  | 0x02 => some (old + v)
  | 0x03 => some (old &&& v)
  | 0x04 => some (old ||| v)
  | 0x05 => some (old ^^^ v)
  | 0x06 => some (if v.slt old then v else old)
  | 0x07 => some (if old.slt v then v else old)
  | 0x08 => some (if old.ult v then old else v)
  | 0x09 => some (if old.ult v then v else old)
  | _ => none

/-- The atomic commands by their OP (R254). -/
def atomicOp : Instr → Option (Nat × AtomicArgs)
  | .atomicSwap a => some (0x00, a)
  | .atomicCas a => some (0x01, a)
  | .atomicAdd a => some (0x02, a)
  | .atomicAnd a => some (0x03, a)
  | .atomicOr a => some (0x04, a)
  | .atomicXor a => some (0x05, a)
  | .atomicSmin a => some (0x06, a)
  | .atomicSmax a => some (0x07, a)
  | .atomicUmin a => some (0x08, a)
  | .atomicUmax a => some (0x09, a)
  | .atomicFadd a => some (0x0A, a)
  | .atomicLoad a => some (0x0B, a)
  | _ => none

/-- The vector operations by tile, stream, operation code (R121), whether they carry statistics, and their row function
(R123 to R128, R145 to R152). FUNC is not among them. -/
def vectorOp : Instr → Option (Nat × Nat × Nat × Bool × (VopDesc → (Nat → Byte) → Nat → VRow))
  | .vopAdd t v => some (t, v, 0x00, false, eachElem (binOp FVal.add))
  | .vopSub t v => some (t, v, 0x01, false, eachElem (binOp FVal.sub))
  | .vopMul t v => some (t, v, 0x02, false, eachElem (binOp FVal.mul))
  | .vopFma t v => some (t, v, 0x03, false, eachElem (fun x rd r i =>
      narrowTo x.dst.fmtw ((slotVal rd x.src0 r i).fma (slotVal rd x.src1 r i) (slotVal rd x.src2 r i))))
  | .vopMin t v => some (t, v, 0x04, false, eachElem (binOp FVal.min))
  | .vopMax t v => some (t, v, 0x05, false, eachElem (binOp FVal.max))
  | .vopAbs t v => some (t, v, 0x06, false, eachElem (unOp FVal.abs))
  | .vopNeg t v => some (t, v, 0x07, false, eachElem (unOp FVal.neg))
  | .copysign t v => some (t, v, 0x08, false, eachElem (fun x rd r i =>
      narrowTo x.dst.fmtw (withSign (slotVal rd x.src0 r i) (slotSign rd x.src1 r i))))
  | .cmpEq t v => some (t, v, 0x10, false, eachElem (cmpOp FVal.eq))
  | .cmpNe t v => some (t, v, 0x11, false, eachElem (cmpOp (fun a b => !a.eq b)))
  | .cmpLt t v => some (t, v, 0x12, false, eachElem (cmpOp FVal.lt))
  | .cmpLe t v => some (t, v, 0x13, false, eachElem (cmpOp (fun a b => a.lt b || a.eq b)))
  | .cmpUnord t v => some (t, v, 0x14, false, eachElem (cmpOp (fun a b => a.isNan || b.isNan)))
  | .sel t v => some (t, v, 0x15, false, eachElem (fun x rd r i =>
      narrowTo x.dst.fmtw (if slotCode rd x.src0 r i ≠ 0 then slotVal rd x.src1 r i else slotVal rd x.src2 r i)))
  | .classTest t v => some (t, v, 0x18, false, eachElem (fun x rd r i => classOf (fFmt x.src0.fmtw) (slotCode rd x.src0 r i)))
  | .int32Add t v => some (t, v, 0x20, false, eachElem (intOp (fun a b => a + b)))
  | .int32Sub t v => some (t, v, 0x21, false, eachElem (intOp (fun a b => a + 2 ^ 32 - b)))
  | .int32Mul t v => some (t, v, 0x22, false, eachElem (intOp (fun a b => a * b)))
  | .int32And t v => some (t, v, 0x23, false, eachElem (intOp (fun a b => a &&& b)))
  | .int32Or t v => some (t, v, 0x24, false, eachElem (intOp (fun a b => a ||| b)))
  | .int32Xor t v => some (t, v, 0x25, false, eachElem (intOp (fun a b => a ^^^ b)))
  | .int32Shl t v => some (t, v, 0x26, false, eachElem (intOp (fun a b => a * 2 ^ (b % 32))))
  | .int32Shr t v => some (t, v, 0x27, false, eachElem (intOp (fun a b => a / 2 ^ (b % 32))))
  | .int32Sar t v => some (t, v, 0x28, false, eachElem (intOp (fun a b => patternOf 32 (signedOf 32 a / (2 ^ (b % 32) : Int)))))
  | .int32Min t v => some (t, v, 0x29, false, eachElem (intOp (fun a b => if signedOf 32 b < signedOf 32 a then b else a)))
  | .int32Max t v => some (t, v, 0x2A, false, eachElem (intOp (fun a b => if signedOf 32 a < signedOf 32 b then b else a)))
  | .cvt t v => some (t, v, 0x30, false, eachElem (unOp id))
  | .cvtF2i t v => some (t, v, 0x31, false, eachElem (fun x rd r i => patternOf 32 (toInt32 (slotVal rd x.src0 r i))))
  | .cvtI2f t v => some (t, v, 0x32, false, eachElem (fun x rd r i => toF32 (FVal.ofInt (signedOf 32 (slotCode rd x.src0 r i)))))
  | .rsum t v => some (t, v, 0x38, false, eachRow (fun x rd r => narrowTo x.dst.fmtw (f32 (rsumL (rowF32 x rd r)))))
  | .rsumsq t v => some (t, v, 0x39, false, eachRow (fun x rd r => narrowTo x.dst.fmtw (f32 (rsumsqL (rowF32 x rd r)))))
  | .rmax t v => some (t, v, 0x3A, false, eachRow (fun x rd r => narrowTo x.dst.fmtw (f32 (rmaxL (rowF32 x rd r)))))
  | .rmin t v => some (t, v, 0x3B, false, eachRow (fun x rd r => narrowTo x.dst.fmtw (f32 (rminL (rowF32 x rd r)))))
  | .bcast t v => some (t, v, 0x3C, false, eachElem bcastElem)
  | .softmax t v => some (t, v, 0x48, false, softmaxRow)
  | .osmStep t v => some (t, v, 0x49, true, osmStepRow)
  | .osmFinish t v => some (t, v, 0x4A, true, osmFinishRow)
  | .lnorm t v => some (t, v, 0x50, false, lnormRow)
  | .rmsnorm t v => some (t, v, 0x51, false, rmsnormRow)
  | _ => none

/-- The region operations of the KV translator by tile and operation code (R186). -/
def regionOp : Instr → Option (Nat × Nat)
  | .kvPoolInit t => some (t, 1)
  | .kvCreate t => some (t, 2)
  | .kvFork t => some (t, 3)
  | .kvReserve t => some (t, 4)
  | .kvCommit t => some (t, 5)
  | .kvTruncate t => some (t, 6)
  | .kvFree t => some (t, 7)
  | _ => none

/-- The collectives by queue, sequence and COLL code (R383). -/
def collectiveOp : Instr → Option (Nat × Nat × Nat)
  | .allReduce q seq => some (q, seq, 1)
  | .reduceScatter q seq => some (q, seq, 2)
  | .allGather q seq => some (q, seq, 3)
  | .broadcast q seq => some (q, seq, 4)
  | .allToAll q seq => some (q, seq, 5)
  | _ => none

end Sys2Proof.Machine
end

