-- ==== Sys2Proof/WellFormed.lean ====
section
/-! DEFINITION. Well-formed commands: every operand names something that the module has (a tile, a queue, a function, a
link) and every field fits its place. `exec` does not rely on it: a command that is not well formed finds nothing to
act on. -/

namespace Sys2Proof

/-- 168 tiles of eight streams, and 64 hub cores (R19, R39, R177). -/
def CoreId.ok : CoreId → Bool
  | .tile t c => t < 168 && c < 8
  | .hub h => h < 64

/-- Access widths of a core (R180). -/
def accessWidthOk (n : Nat) : Bool := n = 1 || n = 2 || n = 4 || n = 8

/-- An identity (R355). -/
def Identity.ok (i : Identity) : Bool := i.dev < 2 ^ 15 && i.link < 6 && i.prov < 2 ^ 48

/-- A message's interface: PF0, I3C or one of 16 VFs (R446), with its header's fields (R445). -/
def Msg.ok (m : Msg) : Bool :=
  (m.iface < 2 || (3 ≤ m.iface && m.iface ≤ 18)) && m.session < 2 ^ 32 && m.seq < 2 ^ 32

/-- A private instruction of the test engine (R438): hashes of 32 bytes, and fields that the fuses hold. -/
def TestOp.ok : TestOp → Bool
  | .scan _ | .read .. | .write .. => true
  | .fuse (.toTest r p ks) => r.length = 32 && p.length = 32 && ks.all (fun k => k.length = 32)
  | .fuse (.identity prov vendor iana) => prov < 2 ^ 48 && vendor < 2 ^ 32 && iana < 2 ^ 32
  | .fuse (.badTile t) => t < 168
  | .fuse (.badColumn t c) => t < 168 && c < 128

/-- A remote request (R362): a home-local address and the widths of its kind. -/
def RemoteReq.ok (r : RemoteReq) : Bool := r.src < 2 ^ 15 && r.tag < 2 ^ 32 && r.addr < 2 ^ 48

def tileOk (t : Nat) : Bool := t < 168
def laneOk (t v : Nat) : Bool := t < 168 && v < 4
def queueOk (q : Nat) : Bool := q < 256
def launchOk (q seq : Nat) : Bool := q < 256 && 0 < seq && seq < 2 ^ 32
def fnOk (fn : Nat) : Bool := fn ≤ 16
def linkOk (i : Nat) : Bool := i < 6
def pairOk (qp : Nat) : Bool := qp < 1024
def portOk (p : Nat) : Bool := p < 2

/-- A well-formed command. -/
def Instr.wellFormed : Instr → Bool
  | .alu c .. | .aluImmediate c .. | .lui c .. | .branch c .. | .jal c .. | .jalr c .. | .fenceAcquire c _
  | .fenceRelease c _ | .fenceFull c _ | .fp32Scalar c .. | .issue c .. | .issueStallResume c | .tokwait c _
  | .toksig c _ | .evwaitPoll c | .rdsys c .. | .nextblk c _ | .call c .. | .trap c _ | .exit c | .coreWatchdog c
  | .coreEcc c => c.ok
  | .load c w .. | .store c w .. => c.ok && accessWidthOk w
  | .atomicSwap a | .atomicCas a | .atomicAdd a | .atomicAnd a | .atomicOr a | .atomicXor a | .atomicSmin a
  | .atomicSmax a | .atomicUmin a | .atomicUmax a | .atomicFadd a | .atomicLoad a => a.core.ok
  | .evsig c e _ | .evwait c e _ => c.ok && e < 64
  | .matmul t | .patchTestAudit t | .convert t | .flush t | .adapt t | .kvPut t | .kvPoolInit t | .kvCreate t | .kvFork t
  | .kvReserve t | .kvCommit t | .kvTruncate t | .kvFree t | .tileFaultReport t | .tileShareEnd t | .tileLaunchEntry t
  | .programMulticast t | .cacheLineFill ⟨t, _⟩ => tileOk t
  | .vopAdd t v | .vopSub t v | .vopMul t v | .vopFma t v | .vopMin t v | .vopMax t v | .vopAbs t v | .vopNeg t v
  | .copysign t v | .cmpEq t v | .cmpNe t v | .cmpLt t v | .cmpLe t v | .cmpUnord t v | .sel t v | .classTest t v
  | .int32Add t v | .int32Sub t v | .int32Mul t v | .int32And t v | .int32Or t v | .int32Xor t v | .int32Shl t v
  | .int32Shr t v | .int32Sar t v | .int32Min t v | .int32Max t v | .cvt t v | .cvtF2i t v | .cvtI2f t v | .rsum t v
  | .rsumsq t v | .rmax t v | .rmin t v | .bcast t v | .func t v | .softmax t v | .osmStep t v | .osmFinish t v
  | .lnorm t v | .rmsnorm t v | .tblload t v | .kvMask t v | .kvPos t v => laneOk t v
  | .tableShadowSwap t slot => tileOk t && slot < 2
  | .copy t e | .dmaTimeout t e _ | .hostDmaError t e _ => tileOk t && e < 2
  | .engineComplete t e => tileOk t && e < 9
  | .engineAbort t e | .enginePreemptionStop t e => t ≤ 168 && e < 9
  | .completionTokenCombine r q seq => r < 168 && launchOk q seq
  | .timedCoreStart t c => tileOk t && c < 8
  | .queueCreate fn q | .queueDestroy fn q | .queueAbort fn q | .qdbTail fn q _ | .qdbCqhead fn q _ => fnOk fn && queueOk q
  | .abortFinish q | .destroyFinish q | .destroyEscalation q | .recordFetch q => queueOk q
  | .launchWaitsMet q s | .launchDispatch q s | .hubRecordHandoff q s | .timedStagingOpen q s | .collectorToken q s _
  | .launchCollected q s | .nvmeofConnect q s .. | .nvmeofRead q s | .nvmeofWrite q s | .nvmeofDisconnect q s
  | .sample q s | .powerRampStart q s _ | .groupCreate q s | .groupDestroy q s | .groupRemap q s | .allReduce q s
  | .reduceScatter q s | .allGather q s | .broadcast q s | .allToAll q s | .snapCopy q s | .snapSend q s
  | .stepRecord q s | .reconstruct q s _ | .restore q s => launchOk q s
  | .evSignal fn _ | .meterSel fn _ | .functionLevelReset fn | .qpCreate fn | .qpModify fn | .qpDestroy fn
  | .serveStart fn | .serveStop fn | .serveUpdate fn | .counterReadClear fn _ | .counterLowWordRead fn _
  | .pcieAtomicopRequest fn _ => fnOk fn
  | .evErrClear fn e _ => fnOk fn && e < 2048
  | .registerWrite _ fn _ w _ => fnOk fn && accessWidthOk w
  | .partEnable p | .partDisable p | .partDrain p | .drainHardStop p | .hardStopTimeout p | .drainRevokeScrub p
  | .partitionHbmScrubDone p | .serviceStepForm p | .serviceStepFinish p | .reserveExhaustedRetry p
  | .draftFailureRetry p => p ≤ 16
  | .patrolScrub a _ => a < 2 ^ 42
  | .remoteRequest r => r.ok
  | .remoteResponse h tag st _ => h < 2 ^ 15 && tag < 2 ^ 32 && st < 2 ^ 16
  | .fabricTimeout h tag => h < 2 ^ 15 && tag < 2 ^ 32
  | .arpRequest p _ ip mac => portOk p && ip.length = 4 && mac.length = 6
  | .neighborSolicitation p _ ip mac => portOk p && ip.length = 16 && mac.length = 6
  | .icmpEcho p _ ip mac _ => portOk p && (ip.length = 4 || ip.length = 16) && mac.length = 6
  | .frameDrop p => portOk p
  | .pfcPause p prio _ => portOk p && prio < 8
  | .netSrctabReread p _ => portOk p
  | .rdmaWrite qp .. | .rdmaWriteWithImmediate qp .. | .rdmaRead qp .. | .send qp _ | .sendWithImmediate qp .. | .rdmaAcknowledgement qp
  | .ecnMarkedPacket qp | .congestionNotification qp | .rateRecovery qp | .qpAckTimeOut qp => pairOk qp
  | .nvmeCommandCompletion ctl .. | .nvmeTimeout ctl _ | .keepAlive ctl => ctl < 64
  | .linkTraining i _ | .linkNak i _ | .frameLockLoss i | .ackTimeout i | .linkRetryTimer i | .idleCreditReturn i
  | .linkDisable i | .plumbExchange i | .plumbExchangeFlit i .. => linkOk i
  | .identityFlit i x | .release i x => linkOk i && x.ok
  | .flitReceive i x => linkOk i && x.length = 256
  | .routeRewrite _ rs => rs.all (fun r => r.dim < 3 && r.coord < 32)
  | .timeTod m => m.length = 16
  | .testEngineInstruction op => op.ok
  | .firmwareDelivery cs => cs.all (·.ok)
  | .feedIdResponse g m f => g < 1024 && m < 512 && f < 2 ^ 16
  | .feedQueryTimeout g | .linkLoss g | .collTimeout g => g < 1024
  | .chunkAck g .. | .chunkResend g _ | .abortNotice g .. | .snapshotStream g .. | .parityAck g .. => g < 1024
  | .collectiveChunk c => c.gnum < 1024
  | .getCerts m | .getAttest m | .openChallenge m _ | .openResponse m _ _ | .close m | .readMode m | .setMode m _
  | .readTelem m | .meterRead m _ | .imageBegin m | .imageWrite m _ | .imageCommit m | .calWrite m _ | .restoreFactory m
  | .reset m | .enrollOwner m _ _ | .lcTransition m _ | .testUnlock m | .flogClear m => m.ok
  | .nonceExpiry i => i < 2 || (3 ≤ i && i ≤ 18)
  | .entdaa a _ => a < 128
  | .setEndpointId e => e < 256
  | .d2dPortFailure p => p < 3
  | .modResetNAssert ns => ns ≤ 500 || 1000 ≤ ns
  | .pfBar2DebugWindowAccess _ n w => w.isSome || 0 < n
  | .kvPageRelease .. | .actSyncGo | .actSyncDrainDone | .vfEnableClear | .meterIntervalBoundary ..
  | .meterRecordSign | .meterAck .. | .managerHeartbeat .. | .heartbeatMiss .. | .managerReport .. | .timePps
  | .plumbHoldoverExpiry | .grandmasterTakeover | .fillerRelease .. | .groupRemapApply | .snapTauUpdate ..
  | .moduleLossReport .. | .pwrEnAssert | .pwrGoodAssert .. | .pwrEnDeassert | .pwrEnHoldExpiry
  | .vinUndervoltage .. | .vinOvervoltage .. | .modResetNDeassert | .perstNAssert
  | .perstNDeassert | .thermalAlert .. | .thermalThrottle .. | .thermalTrip .. | .thermTripRelease
  | .clockGlideEnd | .bringupStart .. | .configurationVerify | .interfaceTraining .. | .bistSlice ..
  | .hbmMarchTest .. | .thermalPause .. | .reconciliation | .knownAnswerRun ..
  | .loadRun .. | .bringupOutcome .. | .bringupWatchdog | .recovWriteChunk | .recovCommit | .deferredReset
  | .sessionIdleTimeout .. | .rstdaa | .getTid | .getPldmVersion .. | .getPldmTypes | .getPldmCommands ..
  | .getPdr .. | .getSensorReading .. | .getStateSensorReadings .. | .bypass | .idcode | .samplePreload ..
  | .extest | .extestPulse | .extestTrain | .switchOnThreshold ..
  | .inputControllerPowerOff | .powerCapHold .. => true

end Sys2Proof
end

