-- ==== Sys2Proof/Certificates/Slice0/Obligations.lean ====
section
/-! DEFINITION. What is claimed of the machine: one step and the queue of commands, reset, invariants that every step keeps,
what each command leaves unchanged, and for every command when it completes and with what state. -/

open Sys2Proof Sys2Proof.Machine

/-! ### Steps, reset, invariants -/

/-- A step runs the command at the front of the queue with the queue's rest; with no command waiting one nanosecond of
Plumb time passes (the model's choice, log entry 4). -/
def Obligations.StepRunsTheFront : Prop :=
  (∀ (c : Instr) (rest : List Instr) (s : State), step { s with pending := c :: rest } = exec c { s with pending := rest }) ∧
  (∀ s : State, s.pending = [] → step s = .next s.idleTick)

/-- What the registers read after reset, where their field maps give a reset value (R118, R266, R297, R303, R314, R354, R378,
R435, R453, R454, R465, R467, R468, R469). -/
def Obligations.ResetRegisters : Prop :=
  let rd := readReg State.reset 0
  rd 0x000 = 0x4160B000 ∧ readReg State.reset 3 0x000 = 0x4160B001 ∧ rd 0x014 = 0 ∧ rd 0x018 = 0 ∧ rd 0x1000 = 0 ∧
  rd 0x5000 = 0x00000C40 ∧ rd 0x5004 = 0x3E800000 ∧ (∀ i, i < 9 → rd (0x5008 + 4 * i) = 0) ∧ rd 0x6000 = 0 ∧ rd 0x6004 = 0 ∧
  (∀ e, e < 2048 → rd (0xC000 + 4 * e) = 0) ∧ rd 0x20000 = 0 ∧ rd 0x20004 = 0 ∧ rd 0x20008 = 0 ∧ rd 0x2000C = 0x80C60000 ∧
  (∀ p, p ≤ 16 → rd (0x22100 + 4 * p) = 0) ∧ rd 0x22200 = 0 ∧ (∀ i, i < 6 → rd (0x23000 + 4 * i) = 0) ∧
  rd 0x23020 = 0x00700000 ∧ rd 0x23024 = 0 ∧ rd 0x23028 = 0x03E803E8 ∧ rd 0x2302C = 0 ∧ rd 0x23030 = 0x00021342 ∧
  rd 0x24000 = 10 ∧ (∀ q, q < 256 → rd (0x10000C + 0x1000 * q) = 0)

/-- The invariants hold after reset, and no command waits. -/
def Obligations.ResetInvariants : Prop :=
  State.reset.managed = true ∧ State.reset.dp.mem.wf = true ∧ State.reset.pending = []

/-- Every step keeps the management plane's invariant (R447, R448, R452): at most four sessions, whose numbers are distinct,
and a flash lock held by one of them. -/
def Obligations.StepKeepsManaged : Prop :=
  ∀ s t : State, s.managed = true → step s = .next t → t.managed = true

/-- READY states (R434): no step takes a module from a READY state into SAFE; a degraded module whose planned links have all
matched becomes READY and reports the change to its cell manager. -/
def Obligations.ReadyNeverSafe : Prop :=
  (∀ s t : State, s.mg.boot.st.isReady = true → step s = .next t → t.mg.boot.st ≠ .safe) ∧
  (∀ (i : Nat) (id : Identity) (s : State), s.awake = true → i < 6 → s.mg.boot.st = .degraded →
    s.mg.boot.phase = 6 → (s.fb.link i).st = .training → (s.fb.link i).width ≠ 0 → identityMatches s.fb i id = true → ∃ t : State,
      exec (.identityFlit i id) s = .next t ∧ (t.fb.link i).disc = 1 ∧
      (allMatched t.fb = true → t.mg.boot.st = .ready ∧ t.mg.boot.degradedBit = false) ∧
      (allMatched t.fb = false → t.mg.boot = s.mg.boot) ∧
      (s.fb.cfg.valid = true → s.fb.reportTo ≠ s.fb.cfg.id →
        t.dp = s.dp.send "report" s.fb.reportTo t.fb.report.values []))

/-- A command never touches the queue of waiting commands: only a step takes one. A command of the data plane changes neither
the fabric nor the management plane, whatever it does. -/
def Obligations.Isolation : Prop :=
  (∀ (c : Instr) (s t : State), exec c s = .next t → t.pending = s.pending) ∧
  (∀ (c : Instr) (s t : State), ofDataPlane c = true → exec c s = .next t → t.fb = s.fb ∧ t.mg = s.mg ∧ t.pending = s.pending)

/-- After a module-fatal fault the module serves nothing further (R18): every command of the data plane and of the hub leaves
the state as it is. Module-fatal faults (R18, R298): a die-to-die port that fails, and a hard stop that a hub engine does
not confirm, complete everything in flight with DEVICE_FATAL, assert FAULT_N, and nothing further is served. -/
def Obligations.ModuleFatal : Prop :=
  (∀ (c : Instr) (s : State), s.dp.fatal = true → (ofDataPlane c = true ∨ ofHub c = true) → exec c s = .next s) ∧
  (∀ s : State, s.awake = true →
     (let falls := fun (i : Instr) => ∃ t : State, exec i s = .next t ∧ t.dp.fatal = true ∧ t.mg.pins.faultN = true ∧
        t.dp.launches = [] ∧ t.env.serving = false
      (∀ port, port < 3 → falls (.d2dPortFailure port)) ∧
      (∀ p d, (s.dp.part p).drain = some d → d.unconfirmed ≠ [] → falls (.hardStopTimeout p))))

/-- A module-fatal fault lasts until a whole-module reset (R18): a step from a state that has one answers a state that has
it too, or one whose data plane starts again from its reset values, PCIe link and host memory apart. -/
def Obligations.FatalLastsUntilReset : Prop :=
  ∀ s t : State, s.dp.fatal = true → step s = .next t →
    t.dp.fatal = true ∨ (t.dp.queues = [] ∧ t.dp.launches = [] ∧ t.dp.parts = [] ∧ t.dp.tiles = [] ∧ t.dp.mem.dev = [])

/-- Memory operations: a write gives back what it wrote, leaves every other byte alone, and keeps the canonical form (R253).
Register x0 reads 0 and a write to it is discarded; every other register reads back what was written to it, and a write
leaves the others alone (R179). -/
def Obligations.ReadAfterWrite : Prop :=
  (∀ (m : MemSys) (a : Nat) (bs : List Byte), m.wf = true →
     (m.write a bs).wf = true ∧ readBytes (m.write a bs).dev a bs.length = bs ∧
     (∀ b, b < a ∨ a + bs.length ≤ b → byteAt (m.write a bs).dev b = byteAt m.dev b) ∧
     (∀ g, SMap.get false (m.write a bs).poison g = (SMap.get false m.poison g &&
       !(0 < bs.length && a ≤ 64 * g && 64 * g + 64 ≤ a + bs.length)))) ∧
  (∀ (k : Core) (r : Reg) (v : U64),
     k.reg 0 = 0 ∧ k.setReg 0 v = k ∧ (r ≠ 0 → (k.setReg r v).reg r = v) ∧ (∀ q, q ≠ r → (k.setReg r v).reg q = k.reg q))

/-! ### What commands leave unchanged -/

/-- Core instructions that store nothing leave every byte of memory, and every poison mark, as it was; a LOAD may leave the
location of an atomic in progress undefined, which it shows to be too narrow (R257). STORE, EVSIG and the atomics change no
byte of memory but those of the location that their address names and of such atomics, and no host memory. Core instructions
change only the core's own tile, or the core itself on a hub core, and beside it logs, usage counters, remote requests and
the free-value counter: queues, launches, events, pools, and every other tile are unchanged. -/
def Obligations.CoreFrame : Prop :=
  (∀ (i : Instr) (s t : State), exec i s = .next t →
     (match i with
       | .alu .. | .aluImmediate .. | .lui .. | .branch .. | .jal .. | .jalr .. | .fenceAcquire .. | .fenceRelease ..
       | .fenceFull .. | .fp32Scalar .. | .issue .. | .issueStallResume .. | .tokwait .. | .toksig .. | .evwait .. | .evwaitPoll ..
       | .rdsys .. | .nextblk .. | .call .. | .trap .. | .exit .. | .coreWatchdog .. | .coreEcc .. => True
       | .load .. => s.dp.narrow = []
       | _ => False) →
     t.dp.mem = s.dp.mem) ∧
  ((∀ (c : CoreId) (width : Nat) (vol sgn : Bool) (rd : Reg) (addr : U64) (s t : State),
     exec (.load c width vol sgn rd addr) s = .next t → ∀ b, (∀ x ∈ s.dp.narrow, b < x.addr ∨ x.addr + x.len ≤ b) →
       byteAt t.dp.mem.dev b = byteAt s.dp.mem.dev b ∧ byteAt t.dp.mem.host b = byteAt s.dp.mem.host b) ∧
   (∀ (c : CoreId) (width : Nat) (rs : Reg) (addr : U64) (s t : State), exec (.store c width rs addr) s = .next t →
     ∀ b, (∀ l, coreLocate s.fb.cfg c addr.toNat = .dev l → b < l ∨ l + width ≤ b) →
       (∀ x ∈ s.dp.narrow, b < x.addr ∨ x.addr + x.len ≤ b) →
       byteAt t.dp.mem.dev b = byteAt s.dp.mem.dev b ∧ byteAt t.dp.mem.host b = byteAt s.dp.mem.host b) ∧
   (∀ (n i e : Nat) (v : U32) (s t : State), exec (.evsig (.tile n i) e v) s = .next t →
     ∀ b, (∀ a, eventAddr (s.dp.tile n) e = some a → b < a ∨ a + 4 ≤ b) →
       (∀ x ∈ s.dp.narrow, b < x.addr ∨ x.addr + x.len ≤ b) →
       byteAt t.dp.mem.dev b = byteAt s.dp.mem.dev b ∧ byteAt t.dp.mem.host b = byteAt s.dp.mem.host b) ∧
   (∀ (i : Instr) (op : Nat) (x : AtomicArgs) (s t : State), atomicOp i = some (op, x) → exec i s = .next t →
     ∀ b, (∀ l, coreLocate s.fb.cfg x.core ((s.dp.core x.core).reg x.rs1).toNat = .dev l → b < l ∨ l + (if x.w64 then 8 else 4) ≤ b) →
       (∀ y ∈ s.dp.narrow, b < y.addr ∨ y.addr + y.len ≤ b) →
       byteAt t.dp.mem.dev b = byteAt s.dp.mem.dev b ∧ byteAt t.dp.mem.host b = byteAt s.dp.mem.host b)) ∧
  (∀ (c : CoreId) (i : Instr) (s t : State), exec i s = .next t →
     (coreOf i = some c ∨ i = .issueStallResume c ∨ i = .evwaitPoll c ∨ i = .coreWatchdog c ∨ i = .coreEcc c) →
     t.dp.queues = s.dp.queues ∧ t.dp.launches = s.dp.launches ∧ t.dp.events = s.dp.events ∧ t.dp.pools = s.dp.pools ∧
     t.dp.net = s.dp.net ∧ t.dp.services = s.dp.services ∧ t.dp.coll = s.dp.coll ∧ t.dp.regs = s.dp.regs ∧
     t.dp.irqs = s.dp.irqs ∧ t.dp.widths = s.dp.widths ∧ t.dp.mem.acl = s.dp.mem.acl ∧
     (∀ n k, c = .tile n k → t.dp.hubCores = s.dp.hubCores ∧ ∀ m, m ≠ n → t.dp.tile m = s.dp.tile m) ∧
     (∀ h, c = .hub h → t.dp.tiles = s.dp.tiles ∧ ∀ g, g ≠ h → SMap.get Core.init t.dp.hubCores g = SMap.get Core.init s.dp.hubCores g))

/-- Doorbells, event registers and session-free register commands leave memory, tiles, launches and the other planes alone
(R266, R302, R468). -/
def Obligations.HostRegisterFrame : Prop :=
  (∀ (fn q : Nat) (v : U32) (s t : State), exec (.qdbCqhead fn q v) s = .next t →
    t.dp.mem = s.dp.mem ∧ t.dp.tiles = s.dp.tiles ∧ t.dp.launches = s.dp.launches ∧ t.dp.events = s.dp.events ∧
    ∀ p, p ≠ q → t.dp.queue p = s.dp.queue p) ∧
  (∀ (fn : Nat) (v : U32) (s t : State), exec (.evSignal fn v) s = .next t →
    t.dp.mem = s.dp.mem ∧ t.dp.tiles = s.dp.tiles ∧ t.dp.launches = s.dp.launches ∧ t.dp.queues = s.dp.queues ∧
    ∀ k, k ≠ evKey fn (v.toNat % 2048) → SMap.get Event.init t.dp.events k = SMap.get Event.init s.dp.events k) ∧
  (∀ (fn e : Nat) (v : U32) (s t : State), exec (.evErrClear fn e v) s = .next t →
    t.dp.mem = s.dp.mem ∧ t.dp.tiles = s.dp.tiles ∧ t.dp.launches = s.dp.launches ∧ t.dp.queues = s.dp.queues ∧
    ∀ k, k ≠ evKey fn e → SMap.get Event.init t.dp.events k = SMap.get Event.init s.dp.events k) ∧
  (∀ (sp : RegSpace) (fn off width : Nat) (v : U32) (s t : State), exec (.registerWrite sp fn off width v) s = .next t →
    t.dp.mem = s.dp.mem ∧ t.dp.tiles = s.dp.tiles ∧ t.dp.launches = s.dp.launches ∧ t.dp.queues = s.dp.queues ∧
    t.dp.events = s.dp.events ∧ t.fb = s.fb ∧ t.mg.fuses = s.mg.fuses ∧ t.mg.flash = s.mg.flash)

/-! ### Cores -/

/-- ALU and ALU immediate (R180): the destination takes the result of the operation, on 64 bits or in its low 32, and the core
moves to the next word. Where the spec states no result, the value is free (log entries 13 and 14). LUI (R180) puts the
immediate into bits [31:16] or [47:32] of the destination; that the other bits keep their values is the model's reading (log
entry 15). FP32_SCALAR (R179): the low 32 bits of the destination take the result on the low 32 bits of the sources; the
upper half is free (log entry 14). -/
def Obligations.CoreArithmetic : Prop :=
  ((∀ (c : CoreId) (op : AluOp) (rd rs1 rs2 : Reg) (s : State), AtWord s c (isAlu rd rs1 rs2) →
     (∃ r, exec (.alu c op false rd rs1 rs2) s = .next (s.setDp (s.dp.retireReg s.fb.plumb.ns c rd r)) ∧
       ∀ x, aluSpec 64 op ((s.dp.core c).reg rs1) ((s.dp.core c).reg rs2) = some x → r = x) ∧
     (∃ r, exec (.alu c op true rd rs1 rs2) s =
         .next (s.setDp { s.dp.retireReg s.fb.plumb.ns c rd r with free := s.dp.free + 1 }) ∧
       ∀ x, aluSpec 32 op (((s.dp.core c).reg rs1).setWidth 32) (((s.dp.core c).reg rs2).setWidth 32) = some x →
         r.setWidth 32 = x)) ∧
   (∀ (c : CoreId) (op : AluOp) (rd rs1 : Reg) (imm : U16) (s : State), AtWord s c (isRegImmediate 0x02 rd rs1 imm) →
     (∃ r, exec (.aluImmediate c op false rd rs1 imm) s = .next (s.setDp (s.dp.retireReg s.fb.plumb.ns c rd r)) ∧
       ∀ x, aluSpec 64 op ((s.dp.core c).reg rs1) (imm.signExtend 64) = some x → r = x) ∧
     (∃ r, exec (.aluImmediate c op true rd rs1 imm) s =
         .next (s.setDp { s.dp.retireReg s.fb.plumb.ns c rd r with free := s.dp.free + 1 }) ∧
       ∀ x, aluSpec 32 op (((s.dp.core c).reg rs1).setWidth 32) ((imm.signExtend 64).setWidth 32) = some x →
         r.setWidth 32 = x))) ∧
  (∀ (c : CoreId) (high : Bool) (rd : Reg) (imm : U16) (s : State), AtWord s c (fun w => isImmediate 0x03 imm w && writesReg 0x03 rd w) →
     ∃ r : U64, exec (.lui c high rd imm) s = .next (s.setDp (s.dp.retireReg s.fb.plumb.ns c rd r)) ∧
       ∀ i, r.getLsbD i =
         if (if high then 32 else 16) ≤ i ∧ i < (if high then 48 else 32) then imm.getLsbD (i - if high then 32 else 16)
         else ((s.dp.core c).reg rd).getLsbD i) ∧
  (∀ (c : CoreId) (op : FpOp) (rd rs1 rs2 rs3 : Reg) (s : State), AtWord s c (fun w => isMajor 0x0A w && regFields rd rs1 rs2 w) →
     ∃ r : U64, exec (.fp32Scalar c op rd rs1 rs2 rs3) s =
         .next (s.setDp { s.dp.retireReg s.fb.plumb.ns c rd r with free := s.dp.free + 1 }) ∧
       (let lo := fun x => ((s.dp.core c).reg x).toNat % 2 ^ 32
        r.toNat % 2 ^ 32 = fpResult op (lo rs1) (lo rs2) (lo rs3) % 2 ^ 32))

/-- BRANCH, JAL, JALR and CALL (R180). That a target counts from the instruction's own address, and that the link is the next
word's, is the model's reading (log entry 16). -/
def Obligations.CoreControlFlow : Prop :=
  (∀ (c : CoreId) (cond : BitVec 3) (rs1 rs2 : Reg) (off : BitVec 13) (taken : Bool) (s : State), AtWord s c (isBranch cond rs1 rs2 off) →
    branchSpec cond.toNat ((s.dp.core c).reg rs1) ((s.dp.core c).reg rs2) = some taken →
    exec (.branch c cond rs1 rs2 off) s = .next (s.setDp (s.dp.setCore c ((s.dp.core c).retireTo s.fb.plumb.ns
      (if taken then (((s.dp.core c).pc + 4 * off.toInt) % 2 ^ 64).toNat else (s.dp.core c).pc + 4))))) ∧
  (∀ (c : CoreId) (rd : Reg) (off : BitVec 21) (s : State), AtWord s c (writesReg 0x07 rd) →
    exec (.jal c rd off) s = .next (s.setDp (s.dp.setCore c
      (((s.dp.core c).setReg rd (BitVec.ofNat 64 ((s.dp.core c).pc + 4))).retireTo s.fb.plumb.ns
        (((s.dp.core c).pc + 4 * off.toInt) % 2 ^ 64).toNat)))) ∧
  (∀ (c : CoreId) (rd rs1 : Reg) (s : State), AtWord s c (fun w => writesReg 0x07 rd w && bits w 20 16 = rs1.val) →
    exec (.jalr c rd rs1) s = .next (s.setDp (s.dp.setCore c
      (((s.dp.core c).setReg rd (BitVec.ofNat 64 ((s.dp.core c).pc + 4))).retireTo s.fb.plumb.ns
        ((s.dp.core c).reg rs1).toNat)))) ∧
  (∀ (c : CoreId) (rd : Reg) (entry : Nat) (s : State), AtWord s c (writesReg 0x13 rd) →
    exec (.call c rd entry) s = .next (s.setDp (s.dp.setCore c
      (((s.dp.core c).setReg rd (BitVec.ofNat 64 ((s.dp.core c).pc + 4))).retireTo s.fb.plumb.ns entry))))

/-- LOAD (R180, R183, R221, R238): an aligned load of 1, 2, 4 or 8 bytes extends what it reads from the core's own memory, from
the control registers, or from device memory at its point of coherence or in the tile's cache, after the access and poison
checks; a load from another module is sent and waits. Where it shows another agent's atomic to be too narrow, it returns
some value (R257). STORE (R180, R183, R238): an aligned store writes its bytes to the core's data memory or to device memory
after the access check, and a store to another module is sent. A misaligned access (R207) faults, as does an access outside
the map or a store to what only reads. -/
def Obligations.CoreAccesses : Prop :=
  (∀ (c : CoreId) (n : Nat) (vol sgn : Bool) (rd : Reg) (addr : U64) (s : State), AtWord s c (isLoad n vol sgn rd) →
     accessWidthOk n = true →
     (addr.toNat % n ≠ 0 → exec (.load c n vol sgn rd addr) s = .next (s.setDp
       (coreFault s.env s.dp c { status := 0x0211, at_ := some addr.toNat } 0))) ∧
     (addr.toNat % n = 0 →
       (coreLocate s.fb.cfg c addr.toNat = .bad → exec (.load c n vol sgn rd addr) s = .next (s.setDp
         (coreFault s.env s.dp c (EFault.access_ 1 .read addr.toNat) 0))) ∧
       (∀ o, coreLocate s.fb.cfg c addr.toNat = .fixed o ∨ coreLocate s.fb.cfg c addr.toNat = .data o →
         exec (.load c n vol sgn rd addr) s = .next (s.setDp (s.dp.retireReg s.fb.plumb.ns c rd
           (extend sgn n (leNat (readBytes (s.dp.core c).mem o n)))))) ∧
       (∀ o, coreLocate s.fb.cfg c addr.toNat = .ctl o → ∃ d : DataPlane, d = { s.dp with free := d.free } ∧
         exec (.load c n vol sgn rd addr) s = .next (s.setDp (d.retireReg s.fb.plumb.ns c rd
           (extend sgn n (leNat ((List.range n).map (fun i => ctlByte s.fb.plumb.ns s.dp c (o + i)))))))) ∧
       (∀ h l, coreLocate s.fb.cfg c addr.toNat = .remote h l →
         exec (.load c n vol sgn rd addr) s = .next (s.setDp (s.dp.awaitRemote c h .read [l, n] [] rd n sgn false))) ∧
       (∀ l, coreLocate s.fb.cfg c addr.toNat = .dev l → coreCheck s.dp c .read addr.toNat l n = none →
         (poisonedAt s.dp.mem l n = none →
           (∃ (d : DataPlane) (v : U64), exec (.load c n vol sgn rd addr) s =
             .next (s.setDp (d.retireReg s.fb.plumb.ns c rd v))) ∧
           (s.dp.tooNarrow (coreAgent c) l n = [] → vol = true ∨ coreIsHub c = true →
             ∃ d : DataPlane, exec (.load c n vol sgn rd addr) s = .next (s.setDp (d.retireReg s.fb.plumb.ns c rd
               (extend sgn n (leNat (readBytes s.dp.mem.dev l n))))) ∧ d.mem = s.dp.mem)) ∧
         (∀ t k, c = .tile t k → s.dp.tooNarrow (coreAgent c) l n = [] → cachedPoison s.dp (s.dp.tile t) l n = none → vol = false →
           ∃ d : DataPlane, exec (.load c n vol sgn rd addr) s = .next (s.setDp (d.retireReg s.fb.plumb.ns c rd
             (extend sgn n (leNat ((List.range n).map (fun i => cachedByte s.dp (s.dp.tile t) (l + i))))))) ∧ d.mem = s.dp.mem)))) ∧
  (∀ (c : CoreId) (n : Nat) (rs : Reg) (addr : U64) (s : State), AtWord s c (isMajor 0x05) → accessWidthOk n = true →
     (addr.toNat % n ≠ 0 → exec (.store c n rs addr) s = .next (s.setDp
       (coreFault s.env s.dp c { status := 0x0211, at_ := some addr.toNat } 0))) ∧
     (addr.toNat % n = 0 →
       (let bs := leBytes n ((s.dp.core c).reg rs).toNat
        (coreLocate s.fb.cfg c addr.toNat = .bad → exec (.store c n rs addr) s = .next (s.setDp
          (coreFault s.env s.dp c (EFault.access_ 1 .write addr.toNat) 0))) ∧
        (∀ o, coreLocate s.fb.cfg c addr.toNat = .fixed o ∨ coreLocate s.fb.cfg c addr.toNat = .ctl o →
          exec (.store c n rs addr) s = .next (s.setDp (coreFault s.env s.dp c (EFault.access_ 3 .write addr.toNat) 0))) ∧
        (∀ o, coreLocate s.fb.cfg c addr.toNat = .data o →
          exec (.store c n rs addr) s = .next (s.setDp ((s.dp.dataWrite c o bs).retireOnly s.fb.plumb.ns c))) ∧
        (∀ l, coreLocate s.fb.cfg c addr.toNat = .dev l → coreCheck s.dp c .write addr.toNat l n = none →
          ∃ d : DataPlane, exec (.store c n rs addr) s = .next (s.setDp (d.retireOnly s.fb.plumb.ns c)) ∧
            (s.dp.tooNarrow (coreAgent c) l n = [] → d.mem = s.dp.mem.write l bs)) ∧
        (∀ h l, coreLocate s.fb.cfg c addr.toNat = .remote h l →
          exec (.store c n rs addr) s = .next (s.setDp ((s.dp.sendRemote h .write (.core c) [l] bs).retireOnly s.fb.plumb.ns c))))))

/-- The new value of each integer atomic (R254). The twelve atomics (R254, R255): at an aligned address that passes its checks,
`rd` takes the old value and the location the new one; where it shows another agent's atomic to be too narrow, `rd` takes some
value (R257); at another module it is sent and waits. The three fences (R259): a release part at SYSTEM scope waits for the
core's remote writes; otherwise the core goes on, and an acquire part invalidates the tile's read cache at DIE scope or
wider. -/
def Obligations.CoreAtomics : Prop :=
  (∀ (w op : Nat) (old v cmp : BitVec w) (x : BitVec w), 0 < w → atomicSpec w op old v cmp = some x →
     atomicNew op w old.toNat v.toNat cmp.toNat = x.toNat) ∧
  (∀ (i : Instr) (op : Nat) (x : AtomicArgs) (s : State), atomicOp i = some (op, x) → AtWord s x.core (isAtomic op x) →
     atomicWidthOk op x.w64 = true →
     (let n := if x.w64 then 8 else 4
      let k := s.dp.core x.core
      let a := (k.reg x.rs1).toNat
      let new := fun old => leBytes n (atomicNew op (8 * n) old (k.reg x.rs2).toNat (k.reg x.rd).toNat)
      let ends := fun (d : DataPlane) (old : Nat) => exec i s = .next (s.setDp
        ((if orderAcquires x.order then d.acquire x.core (scopeOf x.core x.scope) else d).retireReg s.fb.plumb.ns x.core x.rd
          (BitVec.ofNat 64 old)))
      a % n = 0 → (orderReleases x.order && releaseWaits s.dp x.core x.scope) = false →
      (∀ o, coreLocate s.fb.cfg x.core a = .data o →
        ends (s.dp.dataWrite x.core o (new (readNat k.mem o n))) (readNat k.mem o n)) ∧
      (∀ l, coreLocate s.fb.cfg x.core a = .dev l → coreCheck s.dp x.core .atomic a l n = none → poisonedAt s.dp.mem l n = none →
        (∃ (d : DataPlane) (old : Nat), ends d old) ∧
        (s.dp.tooNarrow (coreAgent x.core) l n = [] → ∃ d : DataPlane, ends d (readNat s.dp.mem.dev l n) ∧
          d.mem = if op = 0x0B then s.dp.mem else s.dp.mem.write l (new (readNat s.dp.mem.dev l n)))) ∧
      (∀ h l, coreLocate s.fb.cfg x.core a = .remote h l → exec i s = .next (s.setDp
        (s.dp.awaitRemote x.core h .atomic [l, n, op, (k.reg x.rd).toNat] (leBytes n (k.reg x.rs2).toNat) x.rd n false
          (orderAcquires x.order && scopeWide x.scope)))))) ∧
  (∀ (c : CoreId) (sc : Scope) (s : State),
     (AtWord s c (isFence 1 sc) →
       exec (.fenceAcquire c sc) s = .next (s.setDp ((s.dp.acquire c (scopeOf c sc)).retireOnly s.fb.plumb.ns c))) ∧
     (AtWord s c (isFence 2 sc) → exec (.fenceRelease c sc) s =
       .next (s.setDp (if releaseWaits s.dp c sc then s.dp
       else (s.dp.settleAtomics c (scopeOf c sc)).retireOnly s.fb.plumb.ns c))) ∧
     (AtWord s c (isFence 3 sc) → exec (.fenceFull c sc) s = .next (s.setDp (if releaseWaits s.dp c sc then s.dp
       else ((s.dp.settleAtomics c (scopeOf c sc)).acquire c (scopeOf c sc)).retireOnly s.fb.plumb.ns c))))

/-- ISSUE (R178, R185, R186): a well-formed descriptor in the core's data memory or its own tile store enters the engine's queue,
or stalls the core while the queue is full; a stalled ISSUE copies its descriptor and goes on once an entry has freed; an
operation that the stream does not have, or a descriptor elsewhere, stops the tile with DESC_INVALID. TOKWAIT and TOKSIG (R193, R194) on
a tile's scoreboard. EVSIG, EVWAIT and its poll (R197) on the launch's group event block. -/
def Obligations.CoreEngines : Prop :=
  ((∀ (t i e n : Nat) (rs1 rs2 : Reg) (op : BitVec 8) (eng : BitVec 3) (loc : CoreLoc) (d : List Byte) (s : State),
     AtWord s (.tile t i) (isIssue rs1 rs2 0 op eng) → issueEngine i eng.toNat = some e → descSize i op.toNat = some n →
     (let k := s.dp.core (.tile t i)
      let w := (k.reg rs2).toNat
      issueBytes s.fb.cfg s.dp t i (k.reg rs1).toNat n = some (loc, d) →
      (∀ l, loc = .dev l → poisonedAt s.dp.mem l n = none) → tokWordOk w = true → descOk i op.toNat d = true →
      exec (.issue (.tile t i) rs1 rs2 0 op eng) s = .next (s.setDp (issuePut s.fb.plumb.ns s.dp t i e
        ⟨op.toNat, d, tokField w 0 5, tokField w 8 13, tokField w 16 21, k.issued, false⟩)))) ∧
   (∀ (t i e : Nat) (rs1 rs2 : Reg) (op : BitVec 8) (eng : BitVec 3) (s : State),
     AtWord s (.tile t i) (isIssue rs1 rs2 0 op eng) → issueEngine i eng.toNat = some e →
     (let k := s.dp.core (.tile t i)
      let w := (k.reg rs2).toNat
      (∀ n, descSize i op.toNat = some n → issueBytes s.fb.cfg s.dp t i (k.reg rs1).toNat n = none) →
      exec (.issue (.tile t i) rs1 rs2 0 op eng) s = .next (s.setDp (engineFail s.env s.dp t e 0
        ⟨op.toNat, [], tokField w 0 5, tokField w 8 13, tokField w 16 21, k.issued, false⟩ (EFault.plain stDescInvalid))))) ∧
   (∀ (t i e n : Nat) (loc : CoreLoc) (d : List Byte) (s : State), s.env.serving = true → coreActive s.dp (.tile t i) = true →
     ((s.dp.tile t).core i).st = .issueStall e → ((s.dp.tile t).engine e).queue.length < 16 →
     (let k := s.dp.core (.tile t i)
      let v := fetchWord k
      let op := bits v 10 3
      let w := (k.reg (regOf (bits v 20 16))).toNat
      descSize i op = some n → issueBytes s.fb.cfg s.dp t i (k.reg (regOf (bits v 25 21))).toNat n = some (loc, d) →
      (∀ l, loc = .dev l → poisonedAt s.dp.mem l n = none) → tokWordOk w = true → descOk i op d = true →
      exec (.issueStallResume (.tile t i)) s = .next (s.setDp (issuePut s.fb.plumb.ns s.dp t i e
        ⟨op, d, tokField w 0 5, tokField w 8 13, tokField w 16 21, k.issued, false⟩))))) ∧
  (∀ (t i : Nat) (k : Fin 32) (s : State), AtWord s (.tile t i) (isMajor 0x11) →
     (let x := s.dp.tile t
      (1 ≤ x.token k.val → exec (.tokwait (.tile t i) k) s = .next (s.setDp (s.dp.setTile t
        ((x.setToken k.val (x.token k.val - 1)).setCore i ((x.core i).retire s.fb.plumb.ns))))) ∧
      (x.token k.val = 0 → exec (.tokwait (.tile t i) k) s = .next (s.setDp (s.dp.setCore (.tile t i)
        { x.core i with st := .tokWait k.val }))) ∧
      (255 ≤ x.token k.val → exec (.toksig (.tile t i) k) s = .next (s.setDp (s.dp.setTile t (x.faultStop
        ⟨stScoreboardOverflow, i, (x.core i).issued, (x.core i).pc, 0, s.fb.plumb.ns⟩)))) ∧
      (x.token k.val < 255 → exec (.toksig (.tile t i) k) s = .next (s.setDp (s.dp.setTile t (settleTokens s.fb.plumb.ns
        ((x.setToken k.val (x.token k.val + 1)).setCore i ((x.core i).retire s.fb.plumb.ns)))))))) ∧
  (∀ (t i e a : Nat) (v : U32) (s : State), eventAddr (s.dp.tile t) e = some a → poisonedAt s.dp.mem a 4 = none → e < 64 →
     (let n := readNat s.dp.mem.dev a 4
      let d := s.dp.acquire (.tile t i) .device
      (AtWord s (.tile t i) (isMajor 0x12) →
        exec (.evsig (.tile t i) e v) s = .next (s.setDp
          (((s.dp.settleAtomics (.tile t i) .device).tileWrite t a (leBytes 4 (n + v.toNat))).retireOnly s.fb.plumb.ns (.tile t i))) ∧
        (v.toNat ≤ n → exec (.evwait (.tile t i) e v) s = .next (s.setDp (d.retireOnly s.fb.plumb.ns (.tile t i)))) ∧
        (n < v.toNat → exec (.evwait (.tile t i) e v) s = .next (s.setDp (d.setCore (.tile t i)
          { d.core (.tile t i) with st := .evWait e v.toNat })))) ∧
      (s.env.serving = true → coreActive s.dp (.tile t i) = true → ((s.dp.tile t).core i).st = .evWait e v.toNat →
        v.toNat ≤ n → exec (.evwaitPoll (.tile t i)) s = .next (s.setDp (d.retireOnly s.fb.plumb.ns (.tile t i))))))

/-- RDSYS, NEXTBLK and EXIT (R182, R198, R202): the status words of a tile core in a launch, the next block of the grid or −1,
and the end of the program. TRAP, the watchdog and an uncorrectable error fault the core with the status of R207, and a tile
core's fault stops its tile. A fetch outside instruction memory or an undefined word faults the core with CORE_ILLEGAL
whichever instruction is asked for (R181). -/
def Obligations.CoreSystem : Prop :=
  (∀ (t i : Nat) (rd : Reg) (l : TileLaunch) (s : State), AtWord s (.tile t i) (writesReg 0x13 rd) → (s.dp.tile t).launch = some l →
     (let writes := fun (j v : Nat) => exec (.rdsys (.tile t i) rd j) s =
        .next (s.setDp (s.dp.retireReg s.fb.plumb.ns (.tile t i) rd (BitVec.ofNat 64 v)))
      let k := s.dp.core (.tile t i)
      let b := l.rank + k.nextBlk * l.gsize
      writes 0 t ∧ writes 1 i ∧ writes 2 (s.dp.width t) ∧ writes 3 l.rank ∧ writes 4 l.gsize ∧
      writes 5 (l.gx + l.gy * 2 ^ 16 + l.gz * 2 ^ 32) ∧ writes 6 l.seq ∧ writes 7 (s.dp.cls t) ∧ writes 8 s.fb.plumb.ns ∧
      (∃ r, exec (.rdsys (.tile t i) rd 9) s = .next (s.setDp
        { s.dp.retireReg s.fb.plumb.ns (.tile t i) rd r with free := s.dp.free + 1 })) ∧
      (∀ j, 10 ≤ j → writes j 0) ∧
      (b < l.gx * l.gy * l.gz → exec (.nextblk (.tile t i) rd) s = .next (s.setDp (s.dp.setCore (.tile t i)
        (({ k with nextBlk := k.nextBlk + 1 }.setReg rd (BitVec.ofNat 64 b)).retire s.fb.plumb.ns)))) ∧
      (l.gx * l.gy * l.gz ≤ b → exec (.nextblk (.tile t i) rd) s =
        .next (s.setDp (s.dp.retireReg s.fb.plumb.ns (.tile t i) rd (BitVec.allOnes 64)))) ∧
      exec (.exit (.tile t i)) s = .next (s.setDp (s.dp.setCore (.tile t i) { k with st := .exited })))) ∧
  (∀ (c : CoreId) (s : State),
     (∀ code : U16, AtWord s c (isMajor 0x13) → exec (.trap c code) s =
       .next (s.setDp (coreFault s.env s.dp c (EFault.plain 0x0214) code.toNat))) ∧
     (s.env.serving = true → coreActive s.dp c = true → (s.dp.core c).st.live = true →
       exec (.coreEcc c) s = .next (s.setDp (coreFault s.env s.dp c (EFault.plain 0x0212) 0)) ∧
       (engineRuns s.dp c = false → wdogLimit s.dp c * 1000000 ≤ s.fb.plumb.ns - (s.dp.core c).wdStart →
         exec (.coreWatchdog c) s = .next (s.setDp (coreFault s.env s.dp c (EFault.plain 0x0213) 0)))) ∧
     (∀ t i f d, c = .tile t i → (s.dp.tile t).fault = none →
       (let x := (coreFault s.env s.dp c f d).tile t
        (x.fault.map (·.status) = some f.status) ∧ (x.phase = .stopping ∨ x.phase = .stopped)))) ∧
  (∀ (c : CoreId) (i : Instr) (s : State), coreOf i = some c → s.env.serving = true → coreActive s.dp c = true →
     (s.dp.core c).st = .running →
     (fetchOk c (s.dp.core c).pc = false ∨ wordDefined c (fetchWord (s.dp.core c)) = false) →
     exec i s = .next (s.setDp (coreFault s.env s.dp c (EFault.plain 0x0210) 0)))

/-! ### Engines of a tile -/

/-- The matrix unit and the Skim unit (R71 to R111, R171): the granted head of an idle engine's queue starts with its effect
when its checks pass, and stops the tile with the status of the check that fails. The region operations of the KV translator
(R156 to R170): they wait for the locks of the regions that they name, then take them and start, or stop the tile. KV_PAGE_RELEASE returns
a page once every launch that could read it has completed (R157). COPY (R229 to R234), and the two ways a copy that
reads fails while it runs (R232, R234): DMA_TIMEOUT and HOST_DMA_ERROR stop the tile with their status. -/
def Obligations.EngineInstructions : Prop :=
  (∀ (t : Nat) (h : QEntry) (r : List QEntry) (s : State),
     (AtHead s t 1 h r → h.op = 1 →
       (∀ x, matmul s.env t (s.taken t 1 r) h = .ok x → exec (.matmul t) s = .next (s.started t 1 h x)) ∧
       (∀ f, matmul s.env t (s.taken t 1 r) h = .error f → exec (.matmul t) s = .next (s.stopped t 1 1 r h f))) ∧
     (AtHead s t 2 h r →
       (h.op = 1 → (∀ x, convert t (s.taken t 2 r) h = .ok x → exec (.convert t) s = .next (s.started t 2 h x)) ∧
         ∀ f, convert t (s.taken t 2 r) h = .error f → exec (.convert t) s = .next (s.stopped t 2 2 r h f)) ∧
       (h.op = 2 → (∀ x, flush s.env t (s.taken t 2 r) h = .ok x → exec (.flush t) s = .next (s.started t 2 h x)) ∧
         ∀ f, flush s.env t (s.taken t 2 r) h = .error f → exec (.flush t) s = .next (s.stopped t 2 2 r h f)) ∧
       (h.op = 3 → (∀ x, adapt t (s.taken t 2 r) h = .ok x → exec (.adapt t) s = .next (s.started t 2 h x)) ∧
         ∀ f, adapt t (s.taken t 2 r) h = .error f → exec (.adapt t) s = .next (s.stopped t 2 2 r h f)) ∧
       (h.op = 4 → (∀ x, kvPut t (s.taken t 2 r) h = .ok x → exec (.kvPut t) s = .next (s.started t 2 h x)) ∧
         ∀ f, kvPut t (s.taken t 2 r) h = .error f → exec (.kvPut t) s = .next (s.stopped t 2 2 r h f)))) ∧
  ((∀ (i : Instr) (t op : Nat) (h : QEntry) (r : List QEntry) (s : State), regionOp i = some (t, op) → AtHead s t 0 h r →
     h.op = op → (∀ a ∈ lockWords s.dp t h, readNat s.dp.mem.dev a 4 = 0) →
     (∀ x, regionStart s.env t (s.taken t 0 r) h = .ok x → exec i s = .next (s.started t 0 h x) ∧
       x.locks = lockWords (s.taken t 0 r) t h ∧ ∀ a ∈ x.locks, readNat x.dp.mem.dev a 4 = 8 * t + 7) ∧
     (∀ e, regionStart s.env t (s.taken t 0 r) h = .error e → exec i s = .next (s.stopped t 0 6 r h e))) ∧
   (∀ (pool : Nat) (k : KvPool) (x : Nat × List (Nat × Nat)) (s : State), s.env.serving = true →
     SMap.get none s.dp.pools pool = some k → k.pending.find? (pageDue s.dp) = some x →
     ∃ d : DataPlane, exec (.kvPageRelease pool) s = .next (s.setDp d) ∧
       d.mem.dev = ((((if k.scrub then s.dp.mem.zero (k.pageAddr x.1) (k.pageAddr x.1 + k.pageSize) else s.dp.mem).write
           (k.stack + 4 * poolField s.dp k 0x20) (leBytes 4 x.1)).write
           (k.desc + 0x20) (leBytes 4 (poolField s.dp k 0x20 + 1))).write
           (k.desc + 0x24) (leBytes 4 (poolField s.dp k 0x24 - 1))).dev ∧
       d.tiles = s.dp.tiles ∧ d.launches = s.dp.launches)) ∧
  (∀ (t e : Nat) (h : QEntry) (r : List QEntry) (s : State), e < 2 → AtHead s t (7 + e) h r → h.op = 1 →
     (∀ x, copy s.env t e (s.taken t (7 + e) r) h = .ok x → exec (.copy t e) s = .next (s.started t (7 + e) h x)) ∧
     (∀ f, copy s.env t e (s.taken t (7 + e) r) h = .error f → exec (.copy t e) s = .next (s.stopped t (7 + e) (4 + e) r h f))) ∧
  ∀ (t e chunk : Nat) (r : Running) (s : State), s.env.serving = true → e < 2 → ((s.dp.tile t).engine (7 + e)).run = some r →
    copyReads r = true → (s.dp.tile t).phase = .running → (s.dp.tile t).fault = none →
    (let fails := fun (i : Instr) (st : Nat) => ∃ d : DataPlane, exec i s = .next (s.setDp d) ∧
       ((d.tile t).phase = .stopping ∨ (d.tile t).phase = .stopped) ∧ (d.tile t).fault.map (·.status) = some st ∧
       (∀ n, n ≠ t → d.tile n = s.dp.tile n) ∧ d.launches = s.dp.launches
     fails (.dmaTimeout t e chunk) stDmaTimeout ∧
     ((copyDesc r.entry.desc).shost = true → ∀ k, fails (.hostDmaError t e ⟨chunk, k⟩) stHostDmaError))

/-- Statistics merge in any order (R105): a slot combines into a scale record by saturating addition for the counters and error
sums and by maximum for AMAX, so two slots give the same record whichever is flushed first. AMAX is the 32 bits of R103. -/
def Obligations.StatisticsMerge : Prop :=
  ∀ (b : List Byte) (x y : SkimSlot), x.amax < 2 ^ 32 → y.amax < 2 ^ 32 →
    (let r := flushInto b x
     r.length = 48 ∧
     fld r 0 8 = min (fld b 0 8 % 2 ^ 48 + x.count) (2 ^ 48 - 1) ∧ fld r 8 4 = min (fld b 8 4 + x.sat) (2 ^ 32 - 1) ∧
     fld r 12 4 = min (fld b 12 4 + x.nan) (2 ^ 32 - 1) ∧ fld r 16 4 = min (fld b 16 4 + x.inf) (2 ^ 32 - 1) ∧
     fld r 20 4 = max (fld b 20 4) x.amax ∧ fld r 24 8 = min (fld b 24 8 + x.err0) (2 ^ 64 - 1) ∧
     fld r 32 8 = min (fld b 32 8 + x.errUp) (2 ^ 64 - 1) ∧ fld r 40 8 = min (fld b 40 8 + x.errDn) (2 ^ 64 - 1) ∧
     flushInto r y = flushInto (flushInto b y) x)

/-- The vector unit (R119 to R150, R173, R191): every VOP of a stream, FUNC, TBLLOAD, KV_MASK and KV_POS start or stop the tile
in the same way; FUNC and TBLLOAD wait while a table is being replaced, and TABLE_SHADOW_SWAP replaces it (R140). -/
def Obligations.VectorUnit : Prop :=
  (∀ (t v : Nat) (h : QEntry) (r : List QEntry) (s : State), v < 4 → AtHead s t (3 + v) h r →
    (let runs := fun (i : Instr) (f : EngineM EngineEffect) =>
       (∀ x, f = .ok x → exec i s = .next (s.started t (3 + v) h x)) ∧
       (∀ e, f = .error e → exec i s = .next (s.stopped t (3 + v) 3 r h e))
     let slot := fun k => SMap.get TableSlot.init (s.dp.tile t).tables k
     let d := s.taken t (3 + v) r
     (∀ (i : Instr) (code : Nat) (stat : Bool) (f : VopDesc → (Nat → Byte) → Nat → VRow),
       vectorOp i = some (t, v, code, stat, f) → h.op = 1 → fld h.desc 0 1 = code → runs i (vecOp t stat noSfu f d h)) ∧
     (h.op = 1 → fld h.desc 0 1 = 0x40 → (∀ k, userSlot (fld h.desc 1 1) = some k → (slot k).shadow = none) →
       runs (.func t v) (vecOp t false (funcCheck (s.dp.tile t)) (fun x rd r =>
         eachElem (funcElem ((userSlot x.fn).bind (fun k => (slot k).cur))) x rd r) d h)) ∧
     (h.op = 2 → (slot (fld h.desc 0 1)).shadow = none → runs (.tblload t v) (tblload t d h)) ∧
     (h.op = 3 → runs (.kvMask t v) (kvMask t d h)) ∧
     (h.op = 4 → runs (.kvPos t v) (kvPos t d h)))) ∧
  ∀ (t k : Nat) (tab : SfuTable) (s : State), s.env.serving = true →
    (SMap.get TableSlot.init (s.dp.tile t).tables k).shadow = some tab → slotInUse (s.dp.tile t) k = false →
    exec (.tableShadowSwap t k) s = .next (s.setDp (s.dp.setTile t { s.dp.tile t with
      tables := SMap.set TableSlot.init (s.dp.tile t).tables k ⟨some tab, none⟩ }))

/-- What engine instructions leave unchanged: MATMUL, KV_PUT, KV_MASK, KV_POS and every VOP write device memory only, and nothing
outside the ranges that an abort would leave undefined; ADAPT writes its record. As long as none of another agent's atomics
is in progress, nothing else of memory changes, and none of them changes the access tables, queues, launches, events, or a
tile but its own. Starting and ending an instruction change no byte outside its writes, and one that is refused or fails no
byte outside what its failure leaves undefined. -/
def Obligations.EngineFrame : Prop :=
  (∀ (env : Env) (t : Nat) (dp : DataPlane) (q : QEntry) (x : EngineEffect), dp.narrow = [] →
    (let keeps := x.dp.queues = dp.queues ∧ x.dp.launches = dp.launches ∧ x.dp.events = dp.events ∧ x.dp.mem.acl = dp.mem.acl ∧
       x.dp.mem.host = dp.mem.host ∧ (∀ n, n ≠ t → x.dp.tile n = dp.tile n)
     let within := keeps ∧ x.dp.mem = dp.mem ∧ ∀ w ∈ x.writes.flatten, w.host = false ∧
       ∃ r ∈ x.undef, r.1 ≤ w.addr ∧ w.addr + w.data.length ≤ r.1 + r.2
     (matmul env t dp q = .ok x → within) ∧ (kvPut t dp q = .ok x → within) ∧
     (kvMask t dp q = .ok x → within) ∧ (kvPos t dp q = .ok x → within) ∧
     (∀ i v code stat f, vectorOp i = some (t, v, code, stat, f) → fld q.desc 0 1 = code →
       vecOp t stat noSfu f dp q = .ok x → within) ∧
     (adapt t dp q = .ok x → keeps ∧
       ∀ a, (a < fld q.desc 8 8 ∨ fld q.desc 8 8 + 128 ≤ a) → byteAt x.dp.mem.dev a = byteAt dp.mem.dev a))) ∧
  (∀ (s : State) (t e : Nat) (h : QEntry) (x : EngineEffect) (a : Nat), x.dp.narrow = [] →
    (∀ w ∈ x.writes.flatten, (w.host = true ∧ x.hidden = false) ∨ a < w.addr ∨ w.addr + w.data.length ≤ a) →
    byteAt (s.started t e h x).dp.mem.dev a = byteAt x.dp.mem.dev a) ∧
  (∀ (s : State) (t e sub : Nat) (r : List QEntry) (h : QEntry) (f : EngineFail) (a : Nat), f.after = id →
    (∀ u ∈ f.undef, a < u.1 ∨ u.1 + u.2 ≤ a) →
    byteAt (s.stopped t e sub r h f).dp.mem.dev a = byteAt s.dp.mem.dev a) ∧
  (∀ (s s' : State) (t e : Nat) (r : Running) (a : Nat), exec (.engineComplete t e) s = .next s' → e ≠ 0 →
    ((s.dp.tile t).engine e).run = some r → s.dp.narrow = [] →
    (∀ w ∈ r.writes.flatten, w.host = false → a < w.addr ∨ w.addr + w.data.length ≤ a) →
    byteAt s'.dp.mem.dev a = byteAt s.dp.mem.dev a ∧ s'.dp.launches = s.dp.launches ∧ s'.dp.queues = s.dp.queues ∧
      ∀ n, n ≠ t → s'.dp.tile n = s.dp.tile n)

/-- ENGINE_COMPLETE (R193, R196): the writes that are left are performed, or a region operation of the KV translator is carried
out or fails, and the token is incremented; and what stands at a tile's end: TILE_FAULT_REPORT (R203) and TILE_SHARE_END (R202). The
completion-combining tree (R33, R34): while the collector has a credit free (R281), a router whose subtree is complete sends
one token to its parent and frees its slot, and a root stop gives it to the collector; without one, neither happens. -/
def Obligations.TileCompletion : Prop :=
  ((∀ (t e : Nat) (r : Running) (s : State), s.env.serving = true → e < 9 → ((s.dp.tile t).engine e).run = some r →
     (s.dp.tile t).phase = .running → ((s.dp.tile t).engine e).stopping = false → r.remote = 0 → r.todo = [] →
     (e = 1 → (s.dp.tile t).patchBlocks = []) →
     (∀ d, (if e = 0 then regionFinish s.env t allSequences s.dp r = (d, none) else d = r.finish t s.dp) →
       (let c := d.clearRun s.fb.plumb.ns t e
        (c.tile t).phase = .running → exec (.engineComplete t e) s =
          .next (s.setDp (c.setTile t ((c.tile t).signal s.env e r.entry.index r.entry.sig))))) ∧
     (∀ d f, e = 0 → regionFinish s.env t allSequences s.dp r = (d, some f) → exec (.engineComplete t 0) s =
       .next (s.setDp (engineFail s.env (d.clearRun s.fb.plumb.ns t 0) t 0 6 r.entry f)))) ∧
   (∀ (x : Tile) (env : Env) (e j n : Nat),
     (x.token n < 255 → x.signal env e j (some n) = settleTokens env.plumb (x.setToken n (x.token n + 1))) ∧
     (255 ≤ x.token n → (x.signal env e j (some n)).phase ≠ .running)) ∧
   (∀ (t : Nat) (f : FaultRec) (l : TileLaunch) (s : State), s.env.serving = true → (s.dp.tile t).fault = some f →
     (s.dp.tile t).launch = some l → (s.dp.tile t).reported = false →
     ((s.dp.tile t).phase = .stopping ∨ (s.dp.tile t).phase = .stopped) →
     ∃ d : DataPlane, exec (.tileFaultReport t) s = .next (s.setDp d) ∧
       (∀ y, d.launch l.q l.seq = some y → y.aborting = true ∧ y.fault.isSome = true) ∧
       (∀ y, s.dp.launch l.q l.seq = some y → y.fault = none →
         (d.launch l.q l.seq).bind (·.fault) = some ⟨f.status, t, f.stream, f.index⟩) ∧
       (∀ q seq, ¬ (q = l.q ∧ seq = l.seq) → d.launch q seq = s.dp.launch q seq)) ∧
   (∀ (t : Nat) (l : TileLaunch) (s : State), s.env.serving = true → (s.dp.tile t).launch = some l → (s.dp.tile t).phase = .running → (∀ c, c < 8 → ((s.dp.tile t).core c).ended = true) →
     (s.dp.tile t).quiet = true → tileWritesOut s.dp t = false → s.dp.collector.length < 512 →
     ∃ d : DataPlane, exec (.tileShareEnd t) s = .next (s.setDp d) ∧ (d.tile t).phase = .idle ∧ (d.tile t).launch = none ∧
       (∀ n, n ≠ t → d.tile n = s.dp.tile n) ∧ d.mem = s.dp.mem)) ∧
  ((∀ (r q seq : Nat) (c : CSlot) (s : State), s.env.serving = true →
     (s.dp.slots r).find? (fun c => c.q = q && c.seq = seq) = some c → c.need ≤ c.got →
     s.dp.collector.length < 512 →
     (∀ p, treeParent r = some p → exec (.completionTokenCombine r q seq) s =
       .next (s.setDp ((s.dp.freeSlot q seq r).arriveToken p q seq c.got))) ∧
     (treeParent r = none → ∃ d : DataPlane,
       exec (.completionTokenCombine r q seq) s = .next (s.setDp d) ∧
       d.collector = s.dp.collector ++ [(q, seq, r / 84)] ∧ d.tiles = s.dp.tiles)) ∧
   (∀ (t r q seq : Nat) (s : State), 512 ≤ s.dp.collector.length →
     exec (.completionTokenCombine r q seq) s = .next s ∧ exec (.tileShareEnd t) s = .next s) ∧
   (∀ r, r < 168 → (treePath 18 r).length ≤ 17 ∧
     (treePath 18 r).getLast? = some (if r < 84 then 10 else 85) ∧ ∀ p, treeParent r = some p → p / 84 = r / 84))

/-- PATCH_TEST_AUDIT (R112 to R118): the oldest block of the tile is tested, counted, and recorded in the partition's ring when
a cause holds or a passing test is recorded too. CACHE_LINE_FILL puts the oldest fill into the tile's read cache, unless it
was invalidated on its way (R224), or fetches a line with a parity error again (R219). ACT_SYNC (R239) and the patrol scrub (R216, R220): GO sets BUSY until the drain is done;
a corrected error of HBM is counted, and the sixteenth of a row in one cycle logged; an uncorrectable granule is poisoned, counted and logged to
the owner. -/
def Obligations.AuditsFillsScrubs : Prop :=
  ((∀ (t : Nat) (b : PatchBlock) (rest : List PatchBlock) (run : Running) (o : MatOp × MatOp) (s : State),
     s.env.serving = true → (s.dp.tile t).patchBlocks = b :: rest → ((s.dp.tile t).engine 1).run = some run →
     patchOperands s.dp t b = .ok o →
     (let pt := (s.dp.part (s.dp.cls t)).patch
      let recs := patchRecords pt.ctl.toNat b.thresh (patchPairs s.dp t b o)
      (recs = [] ∨ ∀ k, k < 2 ^ pt.ringLog ∨ k = pt.head →
        checkAccess s.dp (s.dp.cls t) (some t) .write (pt.ringBase + 64 * k) 64 = .ok ()) →
      ∃ d : DataPlane, exec (.patchTestAudit t) s = .next (s.setDp d) ∧ (d.tile t).patchBlocks = rest ∧
        (d.part (s.dp.cls t)).patch.sampled = satAdd 32 pt.sampled 1 ∧
        (recs = [] → d.mem = s.dp.mem ∧ (d.part (s.dp.cls t)).patch.head = pt.head))) ∧
   (∀ (t : Nat) (f : Fill) (r : List Fill) (s : State), s.env.serving = true → (s.dp.tile t).fills = f :: r →
     exec (.cacheLineFill ⟨t, none⟩) s = .next (s.setDp (s.dp.setTile t { s.dp.tile t with
       fills := r, cache := if f.dropped then (s.dp.tile t).cache else cachePut (s.dp.tile t).cache ⟨f.line, f.data⟩ }))) ∧
   (∀ (t l : Nat) (s : State), s.env.serving = true → (cacheFind (s.dp.tile t) l).isSome = true → ∃ d : DataPlane,
     exec (.cacheLineFill ⟨t, some l⟩) s = .next (s.setDp d) ∧ cacheFind (d.tile t) l = none ∧ d.mem = s.dp.mem ∧
       (poisonedAt s.dp.mem (128 * l) 128 = none → (s.dp.tile t).fills.any (fun f => f.line = l && !f.dropped) = false →
         (d.tile t).fills = (s.dp.tile t).fills ++ [⟨l, readBytes s.dp.mem.dev (128 * l) 128, false⟩]) ∧
       ∀ n, n ≠ t → d.tile n = s.dp.tile n)) ∧
  ((∀ s : State, s.env.serving = true →
     exec .actSyncGo s = .next (s.setDp { s.dp with mem := { s.dp.mem with syncBusy := true } }) ∧
     exec .actSyncDrainDone s = .next (s.setDp { s.dp with mem := { s.dp.mem with syncBusy := false } })) ∧
   (∀ (a : Nat) (s : State), s.awake = true → a < 0x10000000000 →
     (∃ d : DataPlane, exec (.patrolScrub a .clean) s = .next (s.setDp d) ∧ d = { s.dp with scrub := d.scrub }) ∧
     (∀ bank row, ∃ t : State, exec (.patrolScrub a (.corrected bank row)) s = .next t ∧ t.dp.mem = s.dp.mem ∧
       (let p := hbmPlace a s.fb.cfg.carve
        let c := (SMap.get ScrubCycle.init s.dp.scrub (32 * p.1 + p.2.1)).advance p.2.2
        SMap.get 0 t.dp.telem (0x1000 + 8 * (32 * p.1 + p.2.1)) = satAdd 64 (SMap.get 0 s.dp.telem (0x1000 + 8 * (32 * p.1 + p.2.1))) 1 ∧
        (c.errors (bank, row) ≠ 15 → t.mg = s.mg ∧ t.dp.parts = s.dp.parts) ∧
        (c.errors (bank, row) = 15 → t.mg.flash = addRow s.mg.flash ⟨p.1, p.2.1, bank, row⟩)))) ∧
   (∀ (a : Nat) (s : State), s.awake = true → (a < 0x10000000000 ∨ ∃ n, windowOf a = .tile n ∨ windowOf a = .shared n) →
     backed s.dp a = true → ∃ t : State, exec (.patrolScrub a .uncorrectable) s = .next t ∧ t.dp.mem.dev = s.dp.mem.dev ∧
       SMap.get false t.dp.mem.poison (a / 64) = true ∧
       ∀ g, g ≠ a / 64 → SMap.get false t.dp.mem.poison g = SMap.get false s.dp.mem.poison g))

/-! ### Queues and launches -/

/-- Queue commands (R263, R264, R285 to R288): CREATE makes an ACTIVE queue from a valid descriptor and refuses an invalid one or one that it cannot read,
ABORT discards the records between the counts and aborts the fetched ones, DESTROY closes the queue; each leaves its result.
How aborting and closing queues end (R286, R287, R288): an aborting queue is ACTIVE again once its records have stopped; a
closing queue is DISABLED once none is left, and one whose records do not stop escalates to a drain of the partition. -/
def Obligations.QueueLife : Prop :=
  (∀ (fn q : Nat) (s : State), s.env.serving = true → fnExists s.dp fn = true →
     (let answers := fun (i : Instr) (r : Nat) => exec i s = .next (s.setDp (s.dp.setRegWord fn 0x4000 (r * 2 ^ 16 + q % 256 * 2 ^ 8)))
      let x := s.dp.queue q
      (fnOwns s.dp fn q = false → answers (.queueCreate fn q) 1 ∧ answers (.queueAbort fn q) 1 ∧ answers (.queueDestroy fn q) 1) ∧
      (fnOwns s.dp fn q = true → (s.dp.part fn).st ≠ .ready →
        answers (.queueCreate fn q) 2 ∧ answers (.queueAbort fn q) 2 ∧ answers (.queueDestroy fn q) 2) ∧
      (fnOwns s.dp fn q = true → (s.dp.part fn).st = .ready →
        (x.st ≠ .disabled → answers (.queueCreate fn q) 2) ∧
        (∀ b, x.st = .disabled → hubRead s.env s.dp fn (qcmdArg s.dp fn).1 (qcmdArg s.dp fn).2 64 = .ok b →
          (queueDescOk (s.dp.part fn).msix b = false → answers (.queueCreate fn q) 3) ∧
          (queueDescOk (s.dp.part fn).msix b = true → ∃ d : DataPlane, exec (.queueCreate fn q) s = .next (s.setDp d) ∧
            d.queue q = queueOf fn b ∧ d.regWord fn 0x4000 = q % 256 * 2 ^ 8 ∧ d.mem = s.dp.mem ∧
            ∀ p, p ≠ q → d.queue p = s.dp.queue p)) ∧
        (∀ f, x.st = .disabled → hubRead s.env s.dp fn (qcmdArg s.dp fn).1 (qcmdArg s.dp fn).2 64 = .error f →
          ∃ d : DataPlane, exec (.queueCreate fn q) s = .next (s.setDp d) ∧ d.regWord fn 0x4000 = 4 * 2 ^ 16 + q % 256 * 2 ^ 8 ∧
            d.queues = s.dp.queues ∧ d.mem = s.dp.mem) ∧
        (x.st ≠ .active → answers (.queueAbort fn q) 2) ∧
        (x.st = .active → ∃ d : DataPlane, exec (.queueAbort fn q) s = .next (s.setDp d) ∧ d.mem = s.dp.mem ∧
          (d.queue q).st = .aborting ∧ (d.queue q).head = x.tail ∧ (d.queue q).rung = false ∧
          d.regWord fn 0x4000 = q % 256 * 2 ^ 8 ∧ (∀ p, p ≠ q → d.queue p = s.dp.queue p) ∧
          d.launches = s.dp.launches.map (fun l => if l.q = q then l.abort else l)) ∧
        (x.st = .disabled ∨ x.st = .closing → answers (.queueDestroy fn q) 2) ∧
        (x.st = .active ∨ x.st = .aborting ∨ x.st = .error →
          exec (.queueDestroy fn q) s = .next (s.setDp (closeQueue s.env (s.dp.setRegWord fn 0x4000 (q % 256 * 2 ^ 8)) q)))))) ∧
  ((∀ (q : Nat) (s : State), s.env.serving = true → (s.dp.queue q).st = .aborting → (s.dp.ofQueue q).all (settled s.dp) = true →
     ∃ d : DataPlane, exec (.abortFinish q) s = .next (s.setDp d) ∧ (d.queue q).st = .active ∧ d.ofQueue q = []) ∧
   (∀ (q : Nat) (s : State), s.env.serving = true → (s.dp.queue q).st = .closing → s.dp.ofQueue q = [] →
     (s.dp.queue q).escalated = false → ∃ d : DataPlane, exec (.destroyFinish q) s = .next (s.setDp d) ∧ d.queue q = Queue.init ∧
       d.tiles = s.dp.tiles ∧ d.launches = s.dp.launches ∧ (∀ p, p ≠ q → d.queue p = s.dp.queue p) ∧
       ((s.dp.part (s.dp.queue q).fn).st = .ready → ∀ i ∈ (s.dp.queue q).acte,
         SMap.get AclEntry.none d.mem.acl (aclKey (s.dp.queue q).fn 0 i) = AclEntry.none)) ∧
   (∀ (q : Nat) (s : State), s.env.serving = true → (s.dp.queue q).st = .closing → (s.dp.queue q).escalated = false →
     (s.dp.part (s.dp.queue q).fn).st = .ready →
     (∃ l ∈ s.dp.ofQueue q, settled s.dp l = false ∧ (l.q, l.seq, 2) ∉ s.dp.collector) →
     ∃ d : DataPlane, exec (.destroyEscalation q) s = .next (s.setDp d) ∧ (d.queue q).escalated = true ∧
       (d.part (s.dp.queue q).fn).st = .draining))

/-- Doorbells and event registers (R265, R266, R268, R468): a tail within the ring is taken, one beyond it puts the queue into
ERROR; CQHEAD frees completion slots; EV_SIGNAL adds 1 to an event's counter, EV_ERR_CLEAR clears its ERR. -/
def Obligations.Doorbells : Prop :=
  ∀ (fn q : Nat) (v : U32) (s : State), s.env.serving = true → fnExists s.dp fn = true →
    (let x := s.dp.queue q
     let ev := fun (d : DataPlane) k => SMap.get Event.init d.events (evKey fn k)
     (fnOwns s.dp fn q = true →
       exec (.qdbCqhead fn q v) s = .next (s.setDp (s.dp.setQueue q { x with cqhead := v.toNat })) ∧
       ((s.dp.part fn).st = .ready → x.st = .active →
         (span32 v.toNat x.head ≤ 2 ^ x.rsize →
           exec (.qdbTail fn q v) s = .next (s.setDp (s.dp.setQueue q { x with tail := v.toNat, rung := true }))) ∧
         (2 ^ x.rsize < span32 v.toNat x.head → ∃ d : DataPlane, exec (.qdbTail fn q v) s = .next (s.setDp d) ∧
           (d.queue q).st = .error ∧ (d.queue q).tail = x.tail ∧ (d.queue q).head = x.head ∧ d.tiles = s.dp.tiles))) ∧
     (∃ d : DataPlane, exec (.evSignal fn v) s = .next (s.setDp d) ∧
       ev d (v.toNat % 2048) = { ev s.dp (v.toNat % 2048) with count := ((ev s.dp (v.toNat % 2048)).count + 1) % 2 ^ 20 }) ∧
     (∀ e, e < 2048 → v.toNat.testBit 31 = true → ∃ d : DataPlane, exec (.evErrClear fn e v) s = .next (s.setDp d) ∧
       ev d e = { ev s.dp e with err := false }))

/-- RECORD_FETCH (R265 to R268, R270): the next record of an active queue is read when the window and the completion ring have
room; a record that passes its checks waits in the window, and an unreadable ring puts the queue into ERROR. Waits, dispatch
and handoff (R270 to R274, R277 to R279): a record whose waits are met and whose checks pass becomes ready, one that fails a
check completes with its status; the dispatcher's choice is dispatched; the first
choice among HUB records goes to its engine (R303). -/
def Obligations.Records : Prop :=
  (∀ (q : Nat) (s : State), s.env.serving = true → (s.dp.queue q).st = .active →
     (let x := (s.dp.queue q).takeRung
      let d := s.dp.setQueue q x
      x.head ≠ x.tailSeen → windowFree s.dp q = true → cringSpace d q = true →
      (∀ b, hubRead s.env d x.fn x.rhost (x.ring + 256 * (x.head % 2 ^ x.rsize)) 256 = .ok b →
        fetchCheck s.env b (launchOf d q x.nextSeq b) = none →
        ∃ d' : DataPlane, exec (.recordFetch q) s = .next (s.setDp d') ∧ d'.launches = s.dp.launches ++ [launchOf d q x.nextSeq b] ∧
          (d'.queue q).head = (x.head + 1) % 2 ^ 32 ∧ (d'.queue q).nextSeq = nextSequence x.nextSeq ∧ d'.mem = s.dp.mem) ∧
      (∀ f, hubRead s.env d x.fn x.rhost (x.ring + 256 * (x.head % 2 ^ x.rsize)) 256 = .error f →
        ∃ d' : DataPlane, exec (.recordFetch q) s = .next (s.setDp d') ∧ (d'.queue q).st = .error ∧ d'.launches = s.dp.launches))) ∧
  (∀ (q seq : Nat) (l : Launch) (s : State), s.env.serving = true → s.dp.launch q seq = some l →
     (l.stage = .fetched → l.aborting = false → l.waitsMet s.dp.events = true →
       (∀ l', waitsCheck s.env s.dp l = .ok l' →
         exec (.launchWaitsMet q seq) s =
           .next (s.setDp ((hubUsedAll s.env s.dp l.part (waitsReads s.dp l')).modLaunch q seq (fun _ => l')))) ∧
       (∀ st f, waitsCheck s.env s.dp l = .error (st, f) → exec (.launchWaitsMet q seq) s =
         .next (s.setDp (complete s.env (hubFault s.env s.dp l.part dispatcherId seq q f) l st)))) ∧
     (firstChoice s.env s.dp = some l → exec (.launchDispatch q seq) s = .next (s.setDp (dispatchRecord s.env s.dp l))) ∧
     (firstHub s.env s.dp = some l →
       (let d := { s.dp with served := SMap.set 0 s.dp.served l.prio (l.q + 1) }
        exec (.hubRecordHandoff q seq) s = .next (s.setDp (if l.skip then complete s.env d l stSkipped
          else { d with hubQueue := d.hubQueue ++ [(q, seq)] }.modLaunch q seq (fun y => { y with
            stage := .engine, start := some s.fb.plumb.ns, expect := [2] }))))) ∧
     (l.timed = true → l.type = .launch → l.stage = .ready → l.aborting = false →
       l.notBefore ≤ s.fb.plumb.ns + (s.dp.queue q).stageLead * 1000 →
       exec (.timedStagingOpen q seq) s =
         .next (s.setDp (tryDispatch s.env (s.dp.modLaunch q seq (fun y => { y with stage := .window })) q seq))))

/-- A dispatched launch (R33, R184, R197, R198, R200, R277): each tile of the group is entering with its rank, the event block
reads zero, and the routers of the tree expect their subtrees. Program entry (R184, R200, R201, R279, R280): a tile that
holds the program starts its cores, or arms them for a timed launch; one that does not waits for the multicast of its die,
which is checked by its CRC-32. An armed core starts at its time. -/
def Obligations.DispatchedLaunch : Prop :=
  (∀ (l : Launch) (dp : DataPlane), l.tiles.Nodup →
     (let d := startLaunch dp l
      let ev := eventBlock dp (l.tiles.headD 0 / 84)
      (∀ k (h : k < l.tiles.length), (d.tile l.tiles[k]).phase = .entering ∧
        (d.tile l.tiles[k]).launch = some (l.forTile ev k)) ∧
      (∀ t, t ∉ l.tiles → d.tile t = dp.tile t) ∧
      (∀ i, i < 256 → byteAt d.mem.dev (ev + i) = 0) ∧
      (∀ a, a < ev ∨ ev + 256 ≤ a → byteAt d.mem.dev a = byteAt dp.mem.dev a) ∧
      (∀ r, r ∈ treeRouters l.tiles → ⟨l.q, l.seq, subtree l.tiles r, 0⟩ ∈ d.slots r) ∧ d.queues = dp.queues)) ∧
  ((∀ (t : Nat) (l : TileLaunch) (s : State), s.env.serving = true → (s.dp.tile t).launch = some l →
     (s.dp.tile t).phase = .entering →
     ((s.dp.tile t).tag ≠ some (l.program, l.build) → ∃ d : DataPlane, exec (.tileLaunchEntry t) s = .next (s.setDp d) ∧
       (d.tile t).phase = .needProgram ∧ (d.tile t).tokens = [] ∧ (d.tile t).slots = [] ∧ (d.tile t).fault = none ∧
       (d.tile t).cache = [] ∧ (∀ n, n ≠ t → d.tile n = s.dp.tile n) ∧ d.mem = s.dp.mem) ∧
     ((s.dp.tile t).tag = some (l.program, l.build) → ∃ y : Tile, y.tokens = [] ∧ y.slots = [] ∧ y.fault = none ∧ y.cache = [] ∧
       exec (.tileLaunchEntry t) s = .next (s.setDp (startCores s.env (s.dp.setTile t y) t l)))) ∧
   (∀ (t : Nat) (l : TileLaunch) (bs : List (List Byte)) (s : State), s.env.serving = true → (s.dp.tile t).launch = some l →
     (s.dp.tile t).phase = .needProgram →
     (∀ n, n / 84 = t / 84 → (s.dp.tile n).phase = .entering → (s.dp.tile n).launch.all (fun y => y.q ≠ l.q ∨ y.seq ≠ l.seq) = true) →
     readSections s.env s.dp l l.sects = .ok bs → ∃ d : DataPlane, exec (.programMulticast t) s = .next (s.setDp d) ∧
       d.mem = s.dp.mem ∧
       (crc32 bs.flatten = l.crc → (d.tile t).tag = some (l.program, l.build) ∧
         ((d.tile t).phase = .running ∨ ∃ at_, (d.tile t).phase = .armed at_)) ∧
       (crc32 bs.flatten ≠ l.crc → (s.dp.tile t).fault = none → (d.tile t).tag = none ∧
         (d.tile t).fault.map (·.status) = some stProgramInvalid) ∧
       ∀ n, ((s.dp.tile n).phase ≠ .needProgram ∨ n / 84 ≠ t / 84) → d.tile n = s.dp.tile n) ∧
   (∀ (t c : Nat) (l : TileLaunch) (s : State), s.env.serving = true → c < 8 → (s.dp.tile t).launch = some l →
     ((s.dp.tile t).core c).st = .armed → l.startAt.getD 0 ≤ s.fb.plumb.ns →
     ∃ d : DataPlane, exec (.timedCoreStart t c) s = .next (s.setDp d) ∧ (d.tile t).phase = .running ∧
       ((d.tile t).core c).st = .running ∧ ∀ k, k ≠ c → (d.tile t).core k = (s.dp.tile t).core k))

/-- Collection (R281 to R284): the collector counts a token, and a record whose last token has been counted joins the order of
completion records; once its turn has come the record leaves the dispatcher with a completion record. -/
def Obligations.Collection : Prop :=
  (∀ (q seq src : Nat) (s : State), s.env.serving = true → (q, seq, src) ∈ s.dp.collector.take 512 →
    ∃ d : DataPlane, exec (.collectorToken q seq src) s = .next (s.setDp d) ∧
      d.collector = s.dp.collector.erase (q, seq, src) ∧ d.launches = (s.dp.modLaunch q seq (·.count src)).launches ∧
      (∀ l, d.launch q seq = some l → l.stage = .counted → (s.fb.plumb.ns, q, seq) ∈ d.collected) ∧
      (∀ x ∈ s.dp.collected, x ∈ d.collected) ∧ d.mem = s.dp.mem ∧ d.tiles = s.dp.tiles ∧ d.queues = s.dp.queues) ∧
  (∀ (q seq : Nat) (l : Launch) (s : State), s.env.serving = true → s.dp.launch q seq = some l → collectable s.dp l = true →
    leftToAbort s.dp l = false → collectedNext s.dp l = true →
    ∃ t : State, exec (.launchCollected q seq) s = .next t ∧ t.dp.launch q seq = none ∧
      (t.dp.queue q).written = ((s.dp.queue q).written + 1) % 2 ^ 32 ∧ t.mg = s.mg ∧ t.fb.links = s.fb.links ∧
      (∀ p n, ¬ (p = q ∧ n = seq) → (t.dp.launch p n).map (fun y => { y with waited := false }) =
        (s.dp.launch p n).map (fun y => { y with waited := false })) ∧
      (∀ n, (s.dp.tile n).launch.all (fun x => x.q ≠ q ∨ x.seq ≠ seq) = true → t.dp.tile n = s.dp.tile n))

/-! ### Memory and other modules -/

/-- REMOTE_REQUEST (R212, R238, R240, R254, R362): the home module performs an admitted new request once and answers it, answers
a repeated write or atomic from its record, and refuses an address that it does not admit. REMOTE_RESPONSE and
FABRIC_TIMEOUT (R362, R363): a successful response completes the load or atomic that waits for its tag, or counts down an
engine's requests; a time-out fails the core or the FLUSH with FABRIC_TIMEOUT and a copy with DMA_TIMEOUT. -/
def Obligations.RemoteAccesses : Prop :=
  (∀ (r : RemoteReq) (s : State), s.env.serving = true →
     (let x := SMap.get RemoteSrc.init s.dp.remoteIn r.src
      (x.repeated r.tag = false → homeRefusal s.dp r = none → poisonedAt s.dp.mem r.addr r.len = none →
        s.dp.tooNarrow none r.addr r.len = [] →
        ∃ d : DataPlane, exec (.remoteRequest r) s = .next (s.setDp d) ∧
          (SMap.get RemoteSrc.init d.remoteIn r.src).highest = r.tag ∧
          (r.kind = .read → d.mem = s.dp.mem ∧
            d.fabOut = (s.dp.send "response" r.src [r.tag, 0] (readBytes s.dp.mem.dev r.addr r.len) 2).fabOut) ∧
          (r.kind = .write → r.poison = [] → d.mem = s.dp.mem.write r.addr r.data ∧
            d.fabOut = (s.dp.send "response" r.src [r.tag, 0] [] 2).fabOut) ∧
          (r.kind = .atomic → r.aop < 0x0B → d.mem = s.dp.mem.write r.addr (leBytes r.len (atomicNew r.aop (8 * r.len)
              (readNat s.dp.mem.dev r.addr r.len) (leNat r.data) r.cmp.toNat)) ∧
            d.fabOut = (s.dp.send "response" r.src [r.tag, 0] (leBytes r.len (readNat s.dp.mem.dev r.addr r.len)) 2).fabOut)) ∧
      (x.repeated r.tag = true → r.kind ≠ .read → ∀ y, x.record.find? (fun y => y.1 = r.tag) = some y →
        exec (.remoteRequest r) s = .next (s.setDp (s.dp.send "response" r.src [r.tag, y.2.1] y.2.2 2))) ∧
      (x.repeated r.tag = false → ∀ e, homeRefusal s.dp r = some e → ∃ d : DataPlane,
        exec (.remoteRequest r) s = .next (s.setDp d) ∧ d.mem = s.dp.mem ∧
        d.fabOut = (s.dp.send "response" r.src [r.tag, stAccessFault] (leBytes 1 e.1) 2).fabOut))) ∧
  (∀ (home tag : Nat) (data : List Byte) (r : RemoteOut) (s : State), s.env.serving = true → s.dp.remoteReq home tag = some r →
     (let d := s.dp.dropRemote home tag
      let less := fun (t e : Nat) => d.modRun t e (fun x => { x with remote := x.remote - 1 })
      let stops := fun (i : Instr) (t st : Nat) => ∃ d' : DataPlane, exec i s = .next (s.setDp d') ∧
        ((d'.tile t).phase = .stopping ∨ (d'.tile t).phase = .stopped) ∧
        ((s.dp.tile t).fault = none → (d'.tile t).fault.map (·.status) = some st) ∧
        ∀ n, n ≠ t → d'.tile n = s.dp.tile n
      (∀ c rd n sgn, r.owner = .core c → coreHeld s.dp c = true → (s.dp.core c).st = .remoteWait r.tag rd n sgn false →
        r.kind ≠ .write → (∀ bad, exec (.remoteResponse home tag 0 ⟨data, bad⟩) s =
          .next (s.setDp (d.retireReg s.fb.plumb.ns c rd (extend sgn n (leNat (data.take n)))))) ∧
        exec (.fabricTimeout home tag) s = .next (s.setDp (coreFault s.env d c (EFault.plain stFabricTimeout) 0))) ∧
      (∀ c bad, r.owner = .core c → coreHeld s.dp c = true → r.kind = .write →
        (∀ b, (∀ n rd k sgn acq, (s.dp.core c).st ≠ .remoteWait n rd k sgn acq) →
          exec (.remoteResponse home tag 0 ⟨b, bad⟩) s = .next (s.setDp d)) ∧
        exec (.fabricTimeout home tag) s = .next (s.setDp (coreFault s.env d c (EFault.plain stFabricTimeout) 0))) ∧
      (∀ t e dst host x, r.owner = .dma t e dst host → ((s.dp.tile t).engine (7 + e)).run = some x →
        (r.kind = .write → ∀ bad, exec (.remoteResponse home tag 0 ⟨data, bad⟩) s =
          .next (s.setDp (dmaPump s.env (less t (7 + e)) t e))) ∧
        (((s.dp.tile t).engine (7 + e)).stopping = false → stops (.fabricTimeout home tag) t stDmaTimeout)) ∧
      (∀ t x, r.owner = .skim t → ((s.dp.tile t).engine 2).run = some x →
        (∀ bad, exec (.remoteResponse home tag 0 ⟨data, bad⟩) s = .next (s.setDp (less t 2))) ∧
        (((s.dp.tile t).engine 2).stopping = false → stops (.fabricTimeout home tag) t stFabricTimeout))))

/-! ### Partitions, faults of the module, metering -/

/-- PART_ENABLE, PART_DISABLE and PART_DRAIN (R293 to R297): a plan that passes every check is put in force; one that fails leaves
the number of the first failing check as RESULT; a drain starts in READY and is refused in DISABLED. -/
def Obligations.PartitionCommands : Prop :=
  ∀ (p : Nat) (s : State), p ≤ 16 → s.env.serving = true → fnExists s.dp 0 = true →
    (let answers := fun (i : Instr) (r : Nat) => exec i s = .next (s.setDp (s.dp.setRegWord 0 0x22000 (r * 2 ^ 16 + p * 2 ^ 8)))
     (∀ r, enableCheck s.dp p = .error r → answers (.partEnable p) r) ∧
     (∀ x, enableCheck s.dp p = .ok x → ∃ d : DataPlane, exec (.partEnable p) s = .next (s.setDp d) ∧
       (d.part p).st = .ready ∧ (d.part p).tiles = x.tiles ∧ (d.part p).queues = x.queues ∧
       d.regWord 0 0x22000 = p * 2 ^ 8 ∧ (∀ n, n ≠ p → d.part n = s.dp.part n) ∧
       (∀ e, e < 2048 → SMap.get Event.init d.events (evKey p e) = Event.init) ∧ d.mem.dev = s.dp.mem.dev) ∧
     ((s.dp.part p).st = .disabled → answers (.partDisable p) 1 ∧ answers (.partDrain p) 1) ∧
     ((s.dp.part p).st = .ready →
       (∃ d : DataPlane, exec (.partDisable p) s = .next (s.setDp d) ∧ (d.part p).st = .draining ∧
         (d.part p).drain.map (·.disable) = some true ∧ d.regWord 0 0x22000 = p * 2 ^ 8) ∧
       (∃ d : DataPlane, exec (.partDrain p) s = .next (s.setDp d) ∧ (d.part p).st = .draining ∧
         (d.part p).drain.map (·.disable) = some false ∧ d.regWord 0 0x22000 = p * 2 ^ 8)))

/-- Resets of functions (R296): a function-level reset drains its partition, and one of PF0, or clearing VF Enable, takes every
VF away. The drain of a partition (R297 to R300): at 10 ms its tiles stop; when its engines have acknowledged, its classes'
access is revoked and its tiles are scrubbed; with the HBM scrub done the partition is READY again, or DISABLED. -/
def Obligations.FunctionResets : Prop :=
  ((∀ (fn : Nat) (s : State), s.env.serving = true → fnExists s.dp fn = true → fn ≠ 0 →
     exec (.functionLevelReset fn) s = .next (s.setDp (startDrain s.env s.dp fn false []))) ∧
   (∀ s : State, s.env.serving = true → fnExists s.dp 0 = true →
     (∃ t : State, exec (.functionLevelReset 0) s = .next t ∧ t.dp.vfEnable = false ∧ t.dp.numVfs = 0 ∧
       (∀ y ∈ t.mg.sec.sessions, y.iface ≠ 0)) ∧
     ∃ d : DataPlane, exec .vfEnableClear s = .next (s.setDp d) ∧ d.vfEnable = false ∧ d.numVfs = 0 ∧
       ∀ p, 1 ≤ p → p ≤ 16 → (d.part p).st ≠ .ready)) ∧
  (∀ (p : Nat) (x : Drain) (s : State), s.env.serving = true → (s.dp.part p).drain = some x →
     ((s.dp.part p).st = .draining → x.hardStopped = false → ∃ d : DataPlane, exec (.drainHardStop p) s = .next (s.setDp d) ∧
       (d.part p).st = .draining ∧ (d.part p).drain.map (·.hardStopped) = some true ∧
       ∀ t ∈ (s.dp.part p).tiles, (d.tile t).phase = .idle ∨ (d.tile t).phase = .stopped) ∧
     ((s.dp.part p).st = .draining → (∀ l ∈ s.dp.launches, l.part = p → acknowledged s.dp l = true) →
       ∃ d : DataPlane, exec (.drainRevokeScrub p) s = .next (s.setDp d) ∧ (∀ l ∈ d.launches, l.part ≠ p) ∧
         (∀ t ∈ (s.dp.part p).tiles, (d.tile t).phase = .idle ∧ (d.tile t).launch = none ∧
           (x.escalated = [] → ∀ i, i < 0x280000 → byteAt d.mem.dev (tileBase t + i) = 0)) ∧
         ((d.part p).st = .scrubbing ∨ (d.part p).st = .ready ∨ (d.part p).st = .disabled)) ∧
     ((s.dp.part p).st = .scrubbing → ∃ d : DataPlane, exec (.partitionHbmScrubDone p) s = .next (s.setDp d) ∧
       (d.part p).st = (if x.disable then .disabled else .ready) ∧ (d.part p).drain = none ∧
       (x.escalated = [] → ∀ r ∈ x.scrub, ∀ a, r.1 * 4096 ≤ a → a < (r.2 + 1) * 4096 → byteAt d.mem.dev a = 0)))

/-- PERST_N is no module reset (R408): while it is asserted the PCIe link is down and no function answers; its deassertion has
the effect of a function-level reset of PF0. It changes nothing of bring-up, whatever phase that is in. -/
def Obligations.PerstIsNoReset : Prop :=
  ∀ s : State,
    (∃ t : State, exec .perstNAssert s = .next t ∧ t.mg.pins = { s.mg.pins with perstN := true } ∧ t.mg.boot = s.mg.boot ∧
      t.dp = { s.dp with pcieDown := true } ∧ t.fb = s.fb ∧ (∀ fn, fnExists t.dp fn = false) ∧
      ∀ y ∈ t.mg.sec.sessions, y.iface ≠ 0) ∧
    (s.mg.pins.perstN = true →
      (let up := { s with mg := { s.mg with pins := { s.mg.pins with perstN := false } }, dp := { s.dp with pcieDown := false } }
       fnExists up.dp 0 = true ∧ exec .perstNDeassert s = exec (.functionLevelReset 0) up ∧
       ∃ t : State, exec .perstNDeassert s = .next t ∧ t.mg.boot = s.mg.boot ∧ t.dp.pcieDown = false))

/-- Metering (R306 to R314): the shares of a module energy add up to it (R308); at a boundary the energy is attributed, the open
records turn over and the next interval begins; the oldest closed record is signed into the buffer, with an in-band interrupt
(R452) when that passes 3,072 records; METER_ACK frees what has been read, METER_SEL chooses what METER_WIN shows. -/
def Obligations.MeteringCommands : Prop :=
  (∀ (eMod w us n : Nat) (parts : List (Nat × Nat × Nat)), parts.map (·.1) = List.range 17 → (parts.map (·.2.1)).sum ≤ n →
    ((shareEnergy eMod w us n parts).map (·.2)).sum = eMod) ∧
  ∀ s : State, s.awake = true →
    (let m := s.dp.meter
     (∀ e w bad, m.running = true → m.curEnd ≤ s.fb.plumb.ns →
       (let at_ := max m.curEnd (s.fb.plumb.ns / m.length * m.length)
        ∃ d : DataPlane, exec (.meterIntervalBoundary e w bad) s = .next (s.setDp d) ∧ d.meter.curStart = at_ ∧
         at_ < d.meter.curEnd ∧ d.meter.curEnd % m.length = 0 ∧ d.meter.measured = at_ ∧ d.meter.broken = (m.broken || bad) ∧
         d.mem = s.dp.mem ∧ d.tiles = s.dp.tiles ∧ d.meter.buffer = m.buffer ∧
         d.meter.closed.length = m.closed.length +
           (if 4096 < m.buffer.length + m.closed.length + (turning s.dp).length then 0 else (turning s.dp).length))) ∧
     (∀ r rest, m.closed = r :: rest → m.running = true → m.buffer.length < 4096 →
       s.mg.fuses.keysDestroyed = false → ∃ t : State, exec .meterRecordSign s = .next t ∧ t.dp.meter.closed = rest ∧
         t.dp.meter.buffer = m.buffer ++ [⟨r.seq, r.part, sealBody m s.meterFw r⟩] ∧
         t.mg.bus.ibi = s.mg.bus.ibi ++ (if m.buffer.length = 3072 ∧ s.mg.bus.i3cOn = true then [3] else []) ∧
         t.fb = s.fb ∧ t.dp.mem = s.dp.mem) ∧
     (∀ v, barDecodes s 0 0x24004 = true → ∃ d : DataPlane, exec (.meterAck v) s = .next (s.setDp d) ∧
       d.meter.buffer = m.buffer.filter (fun r => decide (2 ^ 31 ≤ (v.toNat + 2 ^ 32 - r.seq % 2 ^ 32) % 2 ^ 32))) ∧
     (∀ fn v, barDecodes s fn 0x1008 = true → ∃ d : DataPlane, exec (.meterSel fn v) s = .next (s.setDp d) ∧
       SMap.get 0 d.meter.sel fn = v.toNat ∧ d.mem = s.dp.mem) ∧
     ∀ (fn : Nat), (meterWindow m fn).length = 1536 ∨ ∃ r ∈ m.buffer, r.body.length ≠ 256)

/-! ### Front-end network and storage -/

/-- Frames (R315, R316, R320, R470): ARP, neighbour and echo requests for an address of the port are answered, for any other
they are not; other frames are dropped and counted; a paused priority's messages are held, and go out in order when it ends;
the module sends a pause itself when what arrives fills a priority's receive buffer past 75 %.
NET_SRCTAB_HI (R316): PF0's write reads a port's table of source addresses again, at most 32 entries; an entry that cannot
be read is unused; queue pairs whose entry changed or went fail, and the others stay. -/
def Obligations.Frames : Prop :=
  ((∀ (port vlan : Nat) (ip mac pay : List Byte) (s : State), s.env.serving = true → port < 2 →
     (let sends := fun (i : Instr) (kind : String) (tail : List Byte) => exec i s =
        .next (s.setDp (frameOut s.dp kind port [vlan] (portMac s.env.prov port ++ ip ++ mac ++ tail)))
      (portAnswers s.dp port vlan 4 ip = true → sends (.arpRequest port vlan ip mac) "arp-reply" [] ∧
        sends (.icmpEcho port vlan ip mac pay) "echo-reply" pay) ∧
      (portAnswers s.dp port vlan 6 ip = true → sends (.neighborSolicitation port vlan ip mac) "neighbor-advertisement" [] ∧
        sends (.icmpEcho port vlan ip mac pay) "echo-reply" pay) ∧
      (portAnswers s.dp port vlan 4 ip = false → exec (.arpRequest port vlan ip mac) s = .next s) ∧
      (portAnswers s.dp port vlan 6 ip = false → exec (.neighborSolicitation port vlan ip mac) s = .next s))) ∧
   (∀ (port : Nat) (s : State), s.awake = true → port < 2 →
     exec (.frameDrop port) s = .next (s.setDp (s.dp.count (0x138 + 8 * port) 1))) ∧
   (∀ (port prio : Nat) (s : State), s.env.serving = true → port < 2 → prio < 8 →
     (∃ d : DataPlane, exec (.pfcPause port prio true) s = .next (s.setDp d) ∧ d.net.out = s.dp.net.out ∧
       SMap.get false d.net.paused (port * 8 + prio) = true) ∧
     (∃ d : DataPlane, exec (.pfcPause port prio false) s = .next (s.setDp d) ∧
       SMap.get false d.net.paused (port * 8 + prio) = false ∧
       d.net.out = s.dp.net.out ++ (s.dp.net.held.filter (fun m => m.1 = port * 8 + prio)).map (·.2) ∧
       ∀ m ∈ d.net.held, m.1 ≠ port * 8 + prio)) ∧
   (∀ (n : Nat) (x : Qp) (dp : DataPlane), dp.qp n = some x →
     (let d := rxArrive dp n
      let fill := fun (y : DataPlane) => SMap.get 0 y.net.rxFill (n / 512 * 8 + x.prio)
      fill d ≤ 100 ∧ d.net.qps = dp.net.qps ∧ d.net.held = dp.net.held ∧ d.mem = dp.mem ∧
      d.net.out = dp.net.out ++ (if fill dp ≤ 75 ∧ 75 < fill d then [⟨"pfc-pause", n / 512, [x.prio], [], none⟩] else [])))) ∧
  (∀ (port : Nat) (v : U32) (s : State), s.env.serving = true → port < 2 →
     (let base := tableBase (s.dp.regWord 0 (0x25000 + 8 * port)) v.toNat
      ∃ d : DataPlane, exec (.netSrctabReread port v) s = .next (s.setDp d) ∧
       (∀ i, i < 32 → i < bits v.toNat 28 16 → d.srcEntry port i = match hubRead s.env s.dp 0 false (base + 32 * i) 32 with
         | .ok b => srcEntryOf b
         | .error _ => SrcEntry.init) ∧
       (∀ i, i < 32 → bits v.toNat 28 16 ≤ i → d.srcEntry port i = SrcEntry.init) ∧
       (∀ i, i < 32 → d.srcEntry (1 - port) i = s.dp.srcEntry (1 - port) i) ∧
       (∀ n x, n < 512 → x.src < 32 → s.dp.qp (port * 512 + n) = some x →
         d.qp (port * 512 + n) = some (if s.dp.srcEntry port x.src = d.srcEntry port x.src then x else x.fail)) ∧
       d.mem = s.dp.mem))

/-- Inbound RDMA (R317 to R319, R321): a write that its memory key and the access tables admit is performed before its
acknowledgement, a read is answered with the bytes, a SEND reaches the queue pair; a refused access moves the pair to its
error state and leaves memory as it was. An NVMe command's key (R324) admits what lies in that command's data only. -/
def Obligations.InboundRdma : Prop :=
  ∀ (n key va : Nat) (data : List Byte) (imm : U32) (x : Qp) (s : State), s.env.serving = true → s.dp.qp n = some x →
    (x.st = .rtr ∨ x.st = .rts) →
    (let arrived := rxArrive s.dp n
     (x.ud = false → rdmaCheck s.env arrived n x key va data.length .write = none →
      (∃ d : DataPlane, exec (.rdmaWrite n key va data) s = .next (s.setDp (netSend d n "ack" false [] [])) ∧
        d.mem = s.dp.mem.write va data ∧ d.net = arrived.net) ∧
      (s.dp.service x.part = none → ∃ d : DataPlane,
        exec (.rdmaWriteWithImmediate n key va data imm) s = .next (s.setDp (netSend d n "ack" false [] [])) ∧
        d.mem = s.dp.mem.write va data ∧ d.qp n = some { x with rx := x.rx ++ [leBytes 4 imm.toNat] })) ∧
    (x.ud = false → ∀ e, rdmaCheck s.env arrived n x key va data.length .write = some e →
      ∃ d : DataPlane, exec (.rdmaWrite n key va data) s = .next (s.setDp d) ∧ d.mem = s.dp.mem ∧
        (d.qp n).map (·.st) = some .error) ∧
    (x.ud = false → ∀ len, rdmaCheck s.env arrived n x key va len .read = none → poisonedAt s.dp.mem va len = none →
      ∃ d : DataPlane, exec (.rdmaRead n key va len) s =
          .next (s.setDp (netSend d n "read-response" false [] (readBytes s.dp.mem.dev va len))) ∧
        d.mem = s.dp.mem ∧ d.net = arrived.net) ∧
    (let lands := fun (i : Instr) (bs : List Byte) => ∃ d : DataPlane,
       exec i s = .next (s.setDp (if x.ud then d else netSend d n "ack" false [] [])) ∧
       d.qp n = some { x with rx := x.rx ++ [bs] } ∧ d.mem = s.dp.mem
     lands (.send n data) data ∧ lands (.sendWithImmediate n data imm) (data ++ leBytes 4 imm.toNat)) ∧
    (∀ c a, commandKey s.dp n key = some c → s.dp.assoc c.ctl = some a → a.ioqp = n ∧
      (rdmaCheck s.env s.dp n x key va data.length .write = none →
        c.write = false ∧ c.mem ≤ va ∧ va + data.length ≤ c.mem + c.len)))

/-- Queue-pair commands (R317, R471, R472): each leaves its result; CREATE makes a pair in RESET, MODIFY moves it one step or to
ERROR, DESTROY frees it. Acknowledgement and congestion (R319, R320, R472): an acknowledgement completes a message, a time-
out retransmits while retries are left and then fails the pair, which flushes what it had waiting (R321); a marked packet is answered at most once in 50 µs, a
notification halves the rate, and recovery raises it. -/
def Obligations.QueuePairs : Prop :=
  (∀ (fn : Nat) (b : List Byte) (s : State), s.env.serving = true → fnExists s.dp fn = true → (s.dp.part fn).st = .ready →
     hubRead s.env s.dp fn (qpArg s.dp fn).1 (qpArg s.dp fn).2 64 = .ok b → qpDescOk b = true →
     (let sets := fun (i : Instr) (v : Option Qp) => exec i s =
        .next (s.setDp (commandResult (s.dp.setQp (qpNumber b) v) fn 0x4010 0))
      let refuses := fun (i : Instr) (r : Nat) => exec i s = .next (s.setDp (commandResult s.dp fn 0x4010 r))
      (s.dp.qp (qpNumber b) = none →
        (qpUsed s.dp fn < qpQuota s.dp fn → qpSrcOk s.dp fn b = true → sets (.qpCreate fn) (some (qpOf fn b))) ∧
        (qpQuota s.dp fn ≤ qpUsed s.dp fn → refuses (.qpCreate fn) 2) ∧ refuses (.qpModify fn) 1 ∧ refuses (.qpDestroy fn) 1) ∧
      (∀ x, s.dp.qp (qpNumber b) = some x → refuses (.qpCreate fn) 2 ∧
        (x.part = fn → sets (.qpDestroy fn) none ∧
          (qpSrcOk s.dp fn b = true → fld b 4 1 = 4 → exec (.qpModify fn) s =
            .next (s.setDp (commandResult (failQp s.dp (qpNumber b)) fn 0x4010 0))) ∧
          (qpSrcOk s.dp fn b = true → x.st ≠ .error → fld b 4 1 < 4 → fld b 4 1 = qpCode x.st + 1 →
            sets (.qpModify fn) (some { x with st := qpStateOf (fld b 4 1) }))) ∧
        (x.part ≠ fn → refuses (.qpDestroy fn) 1 ∧ refuses (.qpModify fn) 1)))) ∧
  (∀ (n : Nat) (x : Qp) (s : State), s.env.serving = true → s.dp.qp n = some x →
     (let sets := fun (i : Instr) (y : Qp) => exec i s = .next (s.setDp (s.dp.setQp n (some y)))
      let now := s.fb.plumb.ns
      (x.st = .rts → 0 < x.sent →
        sets (.rdmaAcknowledgement n) { x with sent := x.sent - 1, retriesLeft := x.retry } ∧
        (x.ud = false →
          (0 < x.retriesLeft → exec (.qpAckTimeOut n) s = .next (s.setDp (netSend
            (s.dp.setQp n (some { x with retriesLeft := x.retriesLeft - 1 })) n "retransmit" false [x.sent] []))) ∧
          (x.retriesLeft = 0 → exec (.qpAckTimeOut n) s = .next (s.setDp (failQp s.dp n))))) ∧
      (failQp s.dp n).qp n = some { x with st := .error, sent := 0 } ∧ (∀ m ∈ (failQp s.dp n).net.held, m.2.dest ≠ n) ∧
      ((∀ t, x.cnpAt = some t → t + 50000 ≤ now) → exec (.ecnMarkedPacket n) s =
        .next (s.setDp (netSend (s.dp.setQp n (some { x with cnpAt := some now })) n "cnp" false [] []))) ∧
      ((∀ t, x.cutAt = some t → t + 50000 ≤ now) →
        sets (.congestionNotification n) { x with rateK := x.rateK + 1, cutAt := some now, rateAt := now }) ∧
      (x.rateAt + 55000 ≤ now → x.rateN < 20 * 2 ^ x.rateK →
        sets (.rateRecovery n) { x with rateN := min (x.rateN + 2 ^ x.rateK) (20 * 2 ^ x.rateK), rateAt := now })))

/-- NVMe over Fabrics (R322 to R326, R473): an accepted CONNECT makes the association and DISCONNECT ends it; READ and WRITE send
their commands; a completion goes on with its record, and a failure or a time-out ends it with NVME_ERROR or NVME_TIMEOUT. -/
def Obligations.Storage : Prop :=
  (∀ (q seq bl mdts : Nat) (l : Launch) (b : List Byte) (s : State), AtHub s q seq [4, 5] l 1 →
    s.dp.net.nvmeOps.any (fun o => o.q = q && o.seq = seq) = false → assocCmdOk l.const = true → l.addrs.headD 0 % 16 = 0 →
    fabRead s.env s.dp l.part (l.addrs.headD 0) 544 = .ok b → zeros b 0x18 8 = true → 1000 ≤ fld b 4 4 →
    fld b 4 4 ≤ 120000 → s.dp.assoc (fld l.const 0x18 1) = none → nvmeQpOk s.dp l.part (l.group - 4) (fld b 0 2) = true →
    nvmeQpOk s.dp l.part (l.group - 4) (fld b 2 2) = true → (bl = 9 ∨ bl = 12) →
    ∃ d : DataPlane, exec (.nvmeofConnect q seq true bl mdts) s = .next (s.setDp d) ∧
      d.assoc (fld l.const 0x18 1) = some ⟨l.part, fld b 0 2, fld b 2 2, fld b 4 4, bl, mdts⟩ ∧
      (q, seq, 2) ∈ d.collector) ∧
  (∀ (q seq : Nat) (l : Launch) (a : Assoc) (s : State), AtHub s q seq [4, 5] l 4 →
    s.dp.net.nvmeOps.any (fun o => o.q = q && o.seq = seq) = false → assocCmdOk l.const = true →
    s.dp.assoc (fld l.const 0x18 1) = some a → a.part = l.part → a.aqp / 512 = l.group - 4 →
    ∃ d : DataPlane, exec (.nvmeofDisconnect q seq) s = .next (s.setDp d) ∧ d.assoc (fld l.const 0x18 1) = none ∧
      (q, seq, 2) ∈ d.collector) ∧
  (∀ (q seq : Nat) (l : Launch) (s : State), s.dp.net.nvmeOps.any (fun o => o.q = q && o.seq = seq) = false →
    (AtHub s q seq [4, 5] l 2 →
      exec (.nvmeofRead q seq) s = .next (s.setDp (nvmeStart s.env s.dp l (l.group - 4) false))) ∧
    (AtHub s q seq [4, 5] l 3 →
      exec (.nvmeofWrite q seq) s = .next (s.setDp (nvmeStart s.env s.dp l (l.group - 4) true)))) ∧
  (∀ (ctl cid : Nat) (data : List Byte) (c : NvmeCmd) (x : NvmeOp) (s : State), s.env.serving = true →
    findCmd s.dp ctl cid = some (c, x) →
    (c.write = true → exec (.nvmeCommandCompletion ctl cid 0 data) s =
      .next (s.setDp (nvmeGoAll s.env (dropCmd s.dp c)))) ∧
    (∀ st : U16, st ≠ 0 → ∃ d : DataPlane, exec (.nvmeCommandCompletion ctl cid st data) s = .next (s.setDp d) ∧
      (x.q, x.seq, 2) ∈ d.collector ∧ d.net.nvmeOps.any (fun o => o.q = x.q && o.seq = x.seq) = false) ∧
    (∃ d : DataPlane, exec (.nvmeTimeout ctl cid) s = .next (s.setDp d) ∧ (x.q, x.seq, 2) ∈ d.collector ∧ d.assoc ctl = none)) ∧
  (∀ (ctl : Nat) (a : Assoc) (s : State), s.env.serving = true → s.dp.assoc ctl = some a → exec (.keepAlive ctl) s =
    .next (s.setDp (netSend s.dp a.aqp "nvme-keep-alive" true [ctl, a.kato / 3] [])))

/-! ### Resident serving and sampling -/

/-- SERVE_CMD (R332): START, UPDATE and STOP of a function's service, with their results. Steps of a service (R336 to R339): one
is formed when none runs, within BUDGET, MAXSEQ and eight adapters, and ends with its outputs once its launches have completed;
a reserve that runs out of pages drops entries or preempts the last admitted sequence, and a draft that fails is tried again
without candidates. A stopped service lasts while entries for its clients wait (R335). -/
def Obligations.Services : Prop :=
  (∀ (fn : Nat) (s : State), s.env.serving = true → fnExists s.dp fn = true → (s.dp.part fn).st = .ready →
     (let answers := fun (i : Instr) (r : Nat) => exec i s = .next (s.setDp (serveResult s.dp fn r))
      (s.dp.service fn = none → answers (.serveUpdate fn) 2 ∧ answers (.serveStop fn) 2 ∧
        (∀ r, readService s.env s.dp fn = .error r → answers (.serveStart fn) r) ∧
        (∀ b rs, readService s.env s.dp fn = .ok (b, rs) → exec (.serveStart fn) s =
          .next (s.setDp ((serveResult s.dp fn 0).setService fn (some ⟨b, none, rs, [], 1, none, false, []⟩))))) ∧
      (∀ v, s.dp.service fn = some v → answers (.serveStart fn) 2 ∧
        (v.stopping = true → answers (.serveUpdate fn) 2 ∧ answers (.serveStop fn) 2) ∧
        (v.stopping = false →
          (∀ x, readService s.env s.dp fn = .ok x → exec (.serveUpdate fn) s =
            .next (s.setDp ((serveResult s.dp fn 0).setService fn (some { v with pendingDesc := some x })))) ∧
          (v.step.isSome = true → exec (.serveStop fn) s =
            .next (s.setDp ((serveResult s.dp fn 0).setService fn (some { v with stopping := true })))) ∧
          (v.step = none → ∃ d : DataPlane, exec (.serveStop fn) s = .next (s.setDp d) ∧
            ∀ w, d.service fn = some w → w.stopping = true ∧ w.step = none ∧ w.reqs = [] ∧ w.out ≠ []))))) ∧
  (∀ (p : Nat) (v : Service) (s : State), s.env.serving = true → s.dp.service p = some v →
     (v.step = none → v.stopping = false → (s.dp.part p).st = .ready → (s.dp.queue (servicePart v 2 1)).st = .active →
       (let d := (List.range 64).foldl (fun dp i => readRing s.env p i (2 ^ 16) dp) (applyUpdate s.env (flushEgress s.dp p) p)
        exec (.serviceStepForm p) s =
          .next (s.setDp (formStep s.env d p ((d.service p).map (fun v => servicePart v 0x29 1) |>.getD 0))))) ∧
     (∀ t, v.step = some t → t.complete = true →
       (t.status 0 ≠ stKvPoolExhausted → setsErr (t.status 1) = false → ∃ d : DataPlane,
         exec (.serviceStepFinish p) s = .next (s.setDp d) ∧ ∀ w, d.service p = some w → w.step = none) ∧
       (t.status 0 = stKvPoolExhausted → ∀ b, hubRead s.env s.dp p false (workAt v p 0 + 0x10) 2 = .ok b → fld b 0 2 ≠ 0 →
         exec (.reserveExhaustedRetry p) s = .next (s.setDp (resubmit s.env s.dp p t.draft (t.entries.take (fld b 0 2))))) ∧
       (t.status 0 = stKvPoolExhausted → ∀ b r, hubRead s.env s.dp p false (workAt v p 0 + 0x10) 2 = .ok b → fld b 0 2 = 0 →
         (v.reqs.filter (·.running)).getLast? = some r → v.stopping = false →
         exec (.reserveExhaustedRetry p) s = .next (s.setDp (formStep s.env
           (modService (requeue s.dp p r) p (fun v => { v with step := none })) p (servicePart v 0x29 1)))) ∧
       (t.status 0 = stSuccess → setsErr (t.status 1) = true → exec (.draftFailureRetry p) s =
         .next (s.setDp (resubmit s.env s.dp p false (t.entries.map (fun e => { e with new := e.new - e.cand, cand := 0 }))))))) ∧
  (∀ (v : Service) (draft : Nat) (rs : List Req),
     (let t := (fillStep v draft rs [] 0).1
      t.Sublist rs ∧ t.length ≤ servicePart v 8 2 ∧ (t.map (fun r => (r.entry v draft).new)).sum ≤ servicePart v 4 4 ∧
      (adaptersOf t).length ≤ 8))

/-- SAMPLE (R340 to R342): every entry of the Stencil table is drawn in order; the output entries and the accepted nodes are
written, and the record ends. A row with a NaN, or with no logit above negative infinity, has no token; at inverse
temperature zero the draw is the largest logit, the lowest index first. -/
def Obligations.Sampling : Prop :=
  (∀ (q seq : Nat) (l : Launch) (s : State), s.env.serving = true → hubHeld s.dp q seq [3] = some l →
    (∀ st, sampleCheck l.const = some st → exec (.sample q seq) s = .next (s.setDp (hubEnd s.dp q seq (some st)))) ∧
    (∀ tb out acc free d e, sampleCheck l.const = none → readTable s.dp l.part none (l.addrs.headD 0) = .ok tb →
      sampleEntries s.env s.dp l (sampleCmd l.const) tb.entries 0 s.dp.free = .ok (out, acc, free) →
      hubWrite s.env (hubUsedAll s.env s.dp l.part (sampleReads l (sampleCmd l.const) tb.entries)) l.part false
        (l.addrs.getD 4 0) out = .ok d →
      ((l.handles.getD 5 0 = 0 ∧ e = d) ∨
        (l.handles.getD 5 0 ≠ 0 ∧ hubWrite s.env d l.part false (l.addrs.getD 5 0) acc = .ok e)) →
      exec (.sample q seq) s = .next (s.setDp (hubEnd { e with free := free } q seq none)))) ∧
  (∀ (x : List Nat) (p : DrawParams) (i : Nat),
    ((∃ v ∈ x, (f32 v).isNan = true) ∨ (∀ v ∈ x, v = f32NegInf) → drawToken x p i = .nonfinite)) ∧
  (∀ (x : List Nat) (p : DrawParams) (i : Nat), (∀ v ∈ x, (f32 v).isNan = false) → (∃ v ∈ x, v ≠ f32NegInf) →
    (f32 p.invTemp).isZero = true → ∃ k, drawToken x p i = .token k ∧ k < x.length ∧
      (∀ j, j < k → (f32 (x.getD j 0)).lt (f32 (x.getD k 0)) = true) ∧
      ∀ j, j < x.length → (f32 (x.getD k 0)).lt (f32 (x.getD j 0)) = false)

/-! ### Links, routes, managers -/

/-- Link training (R346, R351 to R356): the width and lane group of the good lanes, and this module's identity goes out on VC 0;
without a usable group ABSENT, or DOWN when it retrains, which is counted; a planned or released identity takes the link UP,
another one into QUARANTINE until RELEASE; a link that failed tries again; DISABLED on command. A link that leaves service
holds nothing any more: its retry buffer and what waited go by the detour (R361). -/
def Obligations.LinkStates : Prop :=
  ∀ (i : Nat) (s : State), s.awake = true → i < 6 →
    (let l := s.fb.link i
     let again : Bool := l.st = .down || (l.st = .training && l.retrains ≠ 0 && l.width = 0)
     (∀ r : TrainResult, (l.st = .training ∨ l.st = .down) →
       (∀ w g, chooseWidth r.good = some (w, g) → ∃ t : State, exec (.linkTraining i r) s = .next t ∧
         (t.fb.link i).st = .training ∧ (t.fb.link i).width = w ∧ (t.fb.link i).lgrp = g ∧ (t.fb.link i).asym = r.asym ∧
         (t.fb.link i).retrains = (if again then satAdd 64 l.retrains 1 else l.retrains) ∧ (t.fb.link i).held = [] ∧
         (∃ x : Flit, (t.fb.link i).retry = [x] ∧ x.type = .identity ∧ x.vc = 0 ∧ x.seq = 0 ∧ x.src = s.fb.cfg.id) ∧
         t.mg = s.mg ∧ ∀ k, k ≠ i → t.fb.link k = s.fb.link k) ∧
       (chooseWidth r.good = none → ∃ t : State, exec (.linkTraining i r) s = .next t ∧
         (t.fb.link i).st = (if again then .down else .absent) ∧ (t.fb.link i).width = 0)) ∧
     (∀ id : Identity, l.st = .training → l.width ≠ 0 →
       (identityMatches s.fb i id = true → ∃ t : State, exec (.identityFlit i id) s = .next t ∧ (t.fb.link i).st = .up ∧
         (t.fb.link i).disc = 1 ∧ (t.fb.link i).nbr = id.dev) ∧
       (identityMatches s.fb i id = false → ∃ t : State, exec (.identityFlit i id) s = .next t ∧
         (t.fb.link i).st = .quarantine ∧ (t.fb.link i).disc = (if (s.fb.planned i).v then 4 else 3) ∧
         (t.fb.link i).observed = some id)) ∧
     (∀ id : Identity, l.st = .quarantine → l.observed = some id → ∃ t : State, exec (.release i id) s = .next t ∧
       (t.fb.link i).st = .up ∧ (t.fb.link i).released = some id ∧ t.fb.planned i = ⟨true, id.dev, id.link⟩) ∧
     ((s.fb.planned i).v = true → (l.st = .absent ∨ l.st = .down) → ∃ f : Fabric,
       exec (.linkRetryTimer i) s = .next { s with fb := f } ∧ (f.link i).st = .training) ∧
     exec (.linkDisable i) s = .next (linkDown s i .disabled) ∧
     (∀ st : LinkSt, st ≠ .up → ((linkDown s i st).fb.link i).st = st ∧ ((linkDown s i st).fb.link i).retry = [] ∧
       ((linkDown s i st).fb.link i).held = []))

/-- Flits (R347 to R350, R361): the 256 bytes of a flit are read back as the flit; a good one in sequence acknowledges, returns
credits and is delivered or forwarded; a bad one is rejected with a NAK; a NAK replays; frame lock loss and an
acknowledgement time-out take the link DOWN; owed credits go back in an idle flit. What a link sends next has a credit, and
VC 0 goes before any other channel (R31). -/
def Obligations.Flits : Prop :=
  (∀ x : Flit, (∀ n, x.type = .reserved n → 5 ≤ n ∧ n < 16) → x.vc < 6 → x.cvc < 6 → x.seq < 4096 → x.ack < 4096 → x.ccnt < 64 →
    x.dest < 2 ^ 15 → x.src < 2 ^ 15 → x.payload.length = 240 → x.bytes.length = 256 ∧ Flit.receive x.bytes = some x) ∧
  (∀ (l : Link) (w v : Nat) (turn : Nat × Nat), l.arbiter w = some (v, turn) →
    (∃ y, l.headOf v = some y ∧ hasCredit l y.2 = true) ∧ (l.ready 0 = true → v = 0)) ∧
  ∀ (i : Nat) (s : State), s.awake = true → i < 6 →
    (let l := s.fb.link i
     let nak := (s.setLink i { l with rejecting := true }).onLink i .control "nak" [l.rxSeq]
     (l.talks = true → ∀ bytes : List Byte,
       (Flit.receive bytes = none → exec (.flitReceive i bytes) s = .next nak) ∧
       (∀ x : Flit, Flit.receive bytes = some x →
         (x.seq ≠ (l.rxSeq + 1) % 4096 → exec (.flitReceive i bytes) s = .next (if l.rejecting then s else nak)) ∧
         (x.seq = (l.rxSeq + 1) % 4096 →
           (x.type = .idle → exec (.flitReceive i bytes) s = .next (takeAck s i x)) ∧
           (x.type = .data → l.st = .up → (s.mg.boot.st ≠ .safe ∨ x.vc = 0) →
             exec (.flitReceive i bytes) s = .next (arrive (takeAck s i x) i x))))) ∧
     (l.carries = true →
       (∀ n, (afterAck l.retry n).length < l.retry.length → exec (.linkNak i n) s = .next ((s.setLink i { l with
         retry := afterAck l.retry n, wire := l.wire ++ afterAck l.retry n, replays := 1 }).pumpLink i)) ∧
       (∀ n, (afterAck l.retry n).length = l.retry.length →
         (8 ≤ l.replays → exec (.linkNak i n) s = .next (linkDown s i .down)) ∧
         (l.replays < 8 → exec (.linkNak i n) s =
           .next (s.setLink i { l with wire := l.wire ++ l.retry, replays := l.replays + 1 }))) ∧
       exec (.frameLockLoss i) s = .next (linkDown s i .down) ∧
       (l.retry ≠ [] → exec (.ackTimeout i) s = .next (linkDown s i .down)) ∧
       (∀ vc n, l.creditBack = (vc, n) → n ≠ 0 → l.held = [] → l.retry.length < 1024 → ∃ f : Fabric,
         exec (.idleCreditReturn i) s = .next { s with fb := f } ∧
         (f.link i).txSeq = (l.txSeq + 1) % 4096 ∧ (f.link i).credits = l.credits ∧
         ∃ x : Flit, (f.link i).retry = l.retry ++ [x] ∧ x.type = .idle ∧ x.seq = l.txSeq ∧ x.cvc = vc ∧ x.ccnt = n ∧
           x.ack = l.rxSeq)))

/-- Routes and managers (R357, R359, R365 to R368): rewrites are kept in the order of their Plumb times; on a closed ring the
shorter way is taken; the configured manager's heartbeats go to its deputy, which takes the role after three misses and tells
the other modules in the role's scope; the others address the deputy, and a cell without either reports to the fabric
manager with ALERT_N asserted; a manager keeps the latest report of each module, and a cell manager forwards them merged. -/
def Obligations.RoutesAndManagers : Prop :=
  (∀ (t : Nat) (rs : List RouteEntry) (s : State), s.awake = true → ∃ f : Fabric,
    exec (.routeRewrite t rs) s = .next { s with fb := f } ∧ (t, rs) ∈ f.rewrites ∧ (∀ w ∈ s.fb.rewrites, w ∈ f.rewrites) ∧
    (s.fb.rewrites.Pairwise (fun a b => a.1 ≤ b.1) → f.rewrites.Pairwise (fun a b => a.1 ≤ b.1))) ∧
  (∀ (f : Fabric) (d x n own : Nat), f.cfg.size d = n → coordOf f.cfg.id d = own → x < n → own < n →
    (f.cfg.planOf (linkOf d false)).v = true → (f.cfg.planOf (linkOf d true)).v = true →
    ((x + n - own) % n < (own + n - x) % n → routeMinus f d x = false) ∧
    ((own + n - x) % n < (x + n - own) % n → routeMinus f d x = true)) ∧
  (∀ (r : Role) (s : State), s.awake = true → s.fb.cfg.valid = true →
    (managerId s.fb.cfg r = s.fb.cfg.id → ∃ t : State, exec (.managerHeartbeat r) s = .next t ∧
      t.dp = s.dp.send "heartbeat" (deputyId s.fb.cfg r) [roleCode r] []) ∧
    (managerId s.fb.cfg r ≠ s.fb.cfg.id → deputyId s.fb.cfg r = s.fb.cfg.id → (s.fb.role r).active = false →
      ∃ t : State, exec (.heartbeatMiss r) s = .next t ∧ (t.fb.role r).active = true ∧ t.fb.addr r = s.fb.cfg.id ∧
        ∀ m ∈ roleScope s.fb.cfg r, m ≠ s.fb.cfg.id →
          ∃ x ∈ t.dp.fabOut, x.kind = "manager" ∧ x.dest = m ∧ x.args = [roleCode r, s.fb.cfg.id]) ∧
    (managerId s.fb.cfg r ≠ s.fb.cfg.id → deputyId s.fb.cfg r ≠ s.fb.cfg.id →
      (s.fb.addr r ≠ deputyId s.fb.cfg r → ∃ t : State, exec (.heartbeatMiss r) s = .next t ∧
        t.fb.addr r = deputyId s.fb.cfg r ∧ t.dp = s.dp ∧ t.mg = s.mg) ∧
      (s.fb.addr r = deputyId s.fb.cfg r → r = .cell → s.fb.orphan = false → ∃ t : State,
        exec (.heartbeatMiss r) s = .next t ∧ t.fb.reportTo = s.fb.fmAddr ∧ t.mg.pins.alertN = true))) ∧
  (∀ (r : Report) (s : State), s.awake = true →
    (s.fb.fabricMgr.active = true → ∃ f : Fabric,
      exec (.managerReport r) s = .next { s with fb := f } ∧ r ∈ f.fabricMgr.reports ∧
      ∀ y ∈ f.fabricMgr.reports, y.src = r.src → y = r) ∧
    (s.fb.fabricMgr.active = false → s.fb.cellMgr.active = true → sameCell r.src s.fb.cfg.id = true → ∃ t : State,
      exec (.managerReport r) s = .next t ∧ r ∈ t.fb.cellMgr.reports ∧
      (∀ y ∈ t.fb.cellMgr.reports, y.src = r.src → y = r) ∧
      t.dp = s.dp.send "cell-report" s.fb.fmAddr (t.fb.cellMgr.reports.flatMap Report.values) []))

/-! ### Plumb time and power shaping -/

/-- Plumb time (R369 to R374): on the grandmaster the first edge after a valid message sets the counter; exchanges go out on links
that are UP and steer by the offset from the parent; holdover ends after its time; the deputy takes over. Neither an exchange nor
a tick sets the counter back, short of its wrap. -/
def Obligations.PlumbTime : Prop :=
  (∀ (t : Nat) (msg : List Byte) (s : State), s.awake = true → s.fb.plumb.gm = true →
    (todSeconds msg = some t → s.fb.plumb.aligned = false → s.fb.plumb.synced = false →
      exec (.timeTod msg) s = .next { s with fb := { s.fb with plumb := { s.fb.plumb with tod := some t } } }) ∧
    (s.fb.plumb.tod = some t → ∃ u : State, exec .timePps s = .next u ∧ u.mg = s.mg ∧ u.dp.mem = s.dp.mem ∧
      u.fb.plumb.aligned = true ∧ u.fb.plumb.tod = none ∧
      u.fb.plumb.units = max s.fb.plumb.units (t * 64000000000) % 2 ^ 70)) ∧
  (∀ (i : Nat) (s : State), s.awake = true → i < 6 → (s.fb.link i).st = .up →
    (∃ t : State, exec (.plumbExchange i) s = .next t ∧ t.dp = s.dp ∧ t.mg = s.mg ∧ t.fb.plumb.ns = s.fb.plumb.ns ∧
      ∃ x ∈ (t.fb.link i).retry ++ (t.fb.link i).held.map (·.2), x.type = .plumb ∧ x.vc = 0) ∧
    (∀ t1 t2 t3 t4 depth al dev, s.fb.plumb.gm = false →
      (let a := (s.fb.link i).asym
       let o := ((t1 + a - t2) + (t4 + a - t3)) / 2
       ∃ t : State, exec (.plumbExchangeFlit i t1 t2 t3 t4 depth al dev) s = .next t ∧ t.dp.mem = s.dp.mem ∧ t.mg = s.mg ∧
        (t.fb.link i).offset = some o ∧
        (parentOf (s.fb.setLink i { s.fb.link i with peer := some (depth, al, dev), offset := some o }) = i →
          s.fb.plumb.units + o.natAbs < 2 ^ 70 → t.fb.plumb.depth = depth + 1 ∧
          t.fb.plumb.offset = max (-32768) (min 32767 o) ∧ s.fb.plumb.units ≤ t.fb.plumb.units)))) ∧
  (∀ s : State, s.awake = true →
    (s.fb.plumb.source = .holdover → s.fb.plumb.gm = false → exec .plumbHoldoverExpiry s =
      .next (s.setPlumb { s.fb.plumb with aligned := false, good := 0 })) ∧
    (s.fb.cfg.valid = true → s.fb.cfg.gmDep = s.fb.cfg.id → s.fb.plumb.gm = false →
      (s.fb.plumb.parent = 7 ∨ s.fb.plumb.source = .holdover) → ∃ q : Plumb,
      exec .grandmasterTakeover s = .next (s.setPlumb q) ∧ q.gm = true ∧ q.aligned = true ∧ q.ns = s.fb.plumb.ns) ∧
    (∀ q : Plumb, (s.setPlumb q).fb.plumb = q ∧ (s.setPlumb q).mg = s.mg ∧ (s.setPlumb q).dp.mem = s.dp.mem ∧
      (q.aligned = s.fb.plumb.aligned → (s.setPlumb q).dp = s.dp))) ∧
  (∀ p : Plumb, p.units + 128 < 2 ^ 70 → p.units ≤ p.tick.units ∧ p.tick.units ≤ p.units + 128)

/-- Power shaping and the clock (R35 to R37, R376, R377): a ramp begins when its time has come and rises to its target by T;
filler holds a fall; a glide ends at its target; a draw above the cap or the ramp holds the clock at or below the selected frequency, and from T on filler gives way to work.
Thermal limits (R36, R495, R496): ALERT_N asserts above a threshold until every reading is below its own by 5 °C, unless the module's cell has no manager (R368); the clock
is held until the readings fall back; a trip takes the power, and is released once PWR_EN has been low. -/
def Obligations.PowerShapingAndHeat : Prop :=
  ((∀ (q seq draw : Nat) (l : Launch) (s : State), s.awake = true →
     s.dp.launches.find? (fun l => l.q = q && l.seq = seq) = some l → shapeOn s.dp = true → l.timed = true →
     s.fb.plumb.ns < l.notBefore → draw < rampTarget s.fb.shape s.mg.sec.mode.pcap l →
     l.notBefore ≤ s.fb.plumb.ns + rampNs (rampTarget s.fb.shape s.mg.sec.mode.pcap l - draw) (shapeRise s.dp) →
     ∃ t : State, exec (.powerRampStart q seq draw) s = .next t ∧ t.fb.shape.draw = draw ∧
       t.fb.shape.draw + t.fb.shape.filler = rampTarget s.fb.shape s.mg.sec.mode.pcap l ∧
       t.fb.shape.ramp = some (l.notBefore, rampTarget s.fb.shape s.mg.sec.mode.pcap l, shapeRise s.dp)) ∧
   (∀ (draw : Nat) (s : State), s.awake = true → shapeOn s.dp = true → draw < min s.fb.shape.level s.mg.sec.mode.pcap →
     ∃ t : State, exec (.fillerRelease draw) s = .next t ∧ t.fb.shape.draw = draw ∧
       t.fb.shape.draw + t.fb.shape.filler = min s.fb.shape.level s.mg.sec.mode.pcap ∧ t.fb.shape.ramp = none ∧ t.mg = s.mg) ∧
   (∀ s : State, s.awake = true → s.fb.shape.gliding = true → exec .clockGlideEnd s = .next { s with fb := { s.fb with
     shape := { s.fb.shape with clockRun := s.fb.shape.clockTarget, gliding := false } } }) ∧
   (∀ (draw mhz : Nat) (s : State), s.awake = true →
     (let sh := s.fb.shape.drawn s.fb.plumb.ns draw
      let ends := fun (r : Shape) => exec (.powerCapHold draw mhz) s =
        .next { s with fb := { s.fb with shape := r }, mg := s.mg.reading 3 draw }
      let above := s.mg.sec.mode.pcap < draw ∨ ∃ w, rampLevel sh s.fb.plumb.ns = some w ∧ w < draw
      (above → ends { sh with clockRun := min mhz sh.clockTarget }) ∧
      (¬ above → s.fb.shape.gliding = false → ends { sh with clockRun := sh.clockTarget }) ∧
      (¬ above → s.fb.shape.gliding = true → ends sh) ∧
      sh.clockTarget = s.fb.shape.clockTarget ∧
      (∀ t target rise, s.fb.shape.ramp = some (t, target, rise) → t ≤ s.fb.plumb.ns →
        rampLevel sh s.fb.plumb.ns = some target ∧ sh.draw = draw ∧ sh.filler = target - draw)))) ∧
  ((∀ (sensor : Nat) (v l : Int) (s : State), s.awake = true → alertLimit sensor = some l → ∃ t : State,
     exec (.thermalAlert sensor v) s = .next t ∧ t.dp = s.dp ∧ t.fb = s.fb ∧ SMap.get 0 t.mg.sensors sensor = v ∧
     (l < v → t.mg.pins.alertN = true) ∧
     (v ≤ l → (∃ i k, alertLimit i = some k ∧ k < SMap.get 0 t.mg.sensors i + 500) → t.mg.pins.alertN = s.mg.pins.alertN) ∧
     ((∀ i k, alertLimit i = some k → SMap.get 0 t.mg.sensors i + 500 ≤ k) → t.mg.pins.alertN = s.fb.orphan)) ∧
   (∀ (sensor : Nat) (v l : Int) (s : State), s.awake = true → throttleLimit sensor = some l → ∃ t : State,
     exec (.thermalThrottle sensor v) s = .next t ∧ t.dp.mem = s.dp.mem ∧ t.dp.tiles = s.dp.tiles ∧
     (l < v → t.fb.shape.clockRun ≤ s.fb.shape.clockRun) ∧
     ((∀ i k, throttleLimit i = some k → SMap.get 0 t.mg.sensors i ≤ k) → s.fb.shape.gliding = false →
       t.fb.shape.clockRun = s.fb.shape.clockTarget)) ∧
   (∀ (sensor : Nat) (v l : Int) (s : State), tripLimit sensor = some l → s.mg.pins.pwrGood = true →
     (l < v → ∃ t : State, exec (.thermalTrip sensor v) s = .next t ∧ t.mg.pins.thermTripN = true ∧ t.mg.pins.pwrGood = false ∧
       t.mg.pins.switchOn = false ∧ t.mg.boot.st = .off ∧ t.dp.launches = [] ∧ t.mg.fuses = s.mg.fuses ∧ t.mg.flash = s.mg.flash) ∧
     (v ≤ l → exec (.thermalTrip sensor v) s = .next s)) ∧
   (∀ s : State, s.mg.pins.thermTripN = true → s.mg.pins.pwrEn = false →
     exec .thermTripRelease s = .next (s.setPins { s.mg.pins with thermTripN := false })))

/-! ### Groups, collectives, snapshots -/

/-- Fabric groups (R379 to R382, R396): CREATE makes a group from a valid descriptor and member array, a snapshot group after every
member's feed is known; DESTROY removes one without operations; REMAP is scheduled and changes the groups at its time. -/
def Obligations.FabricGroups : Prop :=
  (∀ (q seq : Nat) (l : Launch) (b bs : List Byte) (s : State), AtHub s q seq [1] l 1 → s.dp.coll.holds q seq = false →
    fabRead s.env s.dp l.part (l.addrs.headD 0) 64 = .ok b → zeros l.const 1 159 = true →
    groupInRange s.dp l.part (fld b 0 2) = true → s.dp.group (fld b 0 2) = none → groupDescOk b = true →
    fabRead s.env s.dp l.part (fld b 0x10 8) (2 * descP b) = .ok bs →
    membersOk s.fb.cfg (fld b 0xA 2) (membersOf bs (descP b)) = true → ∃ d : DataPlane,
    exec (.groupCreate q seq) s = .next (s.setDp d) ∧
    (fld b 2 1 = 0 → d.group (fld b 0 2) = some (groupOf l.part q seq b (membersOf bs (descP b))) ∧ (q, seq, 2) ∈ d.collector) ∧
    (fld b 2 1 = 1 → ∃ g, d.group (fld b 0 2) = some g ∧ g.ready = false ∧ g.feeds = [(s.fb.cfg.id, s.fb.cfg.feed)])) ∧
  (∀ (n m f : Nat) (g : Group) (s : State), s.env.serving = true → creating s.dp n = some g →
    (m ∈ g.members → (∀ x ∈ g.feeds, x.1 ≠ m) → exec (.feedIdResponse n m f) s =
      .next (s.setDp (settleFeeds s.dp n { g with feeds := g.feeds ++ [(m, f)] }))) ∧
    (∃ d : DataPlane, exec (.feedQueryTimeout n) s = .next (s.setDp d) ∧ d.group n = none ∧
      (g.createQ, g.createSeq, 2) ∈ d.collector)) ∧
  (∀ (q seq : Nat) (l : Launch) (s : State), s.dp.coll.holds q seq = false →
    (AtHub s q seq [1] l 2 → groupOps s.dp (fld l.const 2 2) = [] →
      ((usableGroup s.dp l.part (fld l.const 2 2) false).isSome = true ∨
        (usableGroup s.dp l.part (fld l.const 2 2) true).isSome = true) →
      ∃ d : DataPlane, exec (.groupDestroy q seq) s = .next (s.setDp d) ∧ d.group (fld l.const 2 2) = none ∧
        (q, seq, 2) ∈ d.collector ∧ ∀ n, n ≠ fld l.const 2 2 → d.group n = s.dp.group n) ∧
    (AtHub s q seq [1] l 3 → ∃ d : DataPlane, exec (.groupRemap q seq) s = .next (s.setDp d) ∧
      d.coll.remaps = s.dp.coll.remaps ++ [⟨l.part, fld l.const 4 2, fld l.const 6 2, fld l.const 8 8⟩] ∧
      d.coll.groups = s.dp.coll.groups ∧ (q, seq, 2) ∈ d.collector)) ∧
  (∀ s : State, s.env.serving = true → ∃ d : DataPlane, exec .groupRemapApply s = .next (s.setDp d) ∧
    (∀ r ∈ d.coll.remaps, s.fb.plumb.ns < r.at_) ∧
    ((∀ r ∈ s.dp.coll.remaps, s.fb.plumb.ns < r.at_) → d = s.dp))

/-- The collectives (R383 to R389): a record that its group admits begins when OPSEQ says so; a used OPSEQ ends it with
COLL_MISMATCH, an unknown group with GROUP_INVALID, a bad field or format with its status; an operation that fails leaves its
engine, and its output is undefined (R395). -/
def Obligations.Collectives : Prop :=
  ∀ (i : Instr) (q seq c : Nat) (l : Launch) (s : State), collectiveOp i = some (q, seq, c) → AtHub s q seq [1] l 4 →
    s.dp.coll.holds q seq = false → fld l.const 1 1 = c →
    (let a := collArgs l.const
     (usableGroup s.dp l.part a.gnum false = none → exec i s = .next (s.setDp (hubEnd s.dp q seq (some stGroupInvalid)))) ∧
     (∀ g, usableGroup s.dp l.part a.gnum false = some g →
       (g.nextOp < a.opseq → exec i s = .next s) ∧
       (s.dp.collOp a.gnum = none → s.dp.coll.ops.length < 16 →
         (a.opseq < g.nextOp → exec i s = .next (failOp s (a.op l s.fb.plumb.ns) stCollMismatch none)) ∧
         (a.opseq = g.nextOp → a.check g l.const = none → exec i s = .next (beginOp s l a g)) ∧
         (∀ st, a.opseq = g.nextOp → a.check g l.const = some st →
           exec i s = .next (failOp s (a.op l s.fb.plumb.ns) st none))))) ∧
    ∀ (o : CollOp) (st : Nat), o.q = q → o.seq = seq → ∃ d : DataPlane, failOp s o st none = s.setDp d ∧
      (q, seq, 2) ∈ d.collector ∧ (∀ x ∈ d.coll.ops, ¬ (x.q = q ∧ x.seq = seq)) ∧ d.tiles = s.dp.tiles

/-- Chunks and failures (R390 to R395, R400): a chunk of another group or operation ends the operation with its mismatch, a past one is
acknowledged again and counted; an acknowledgement releases a chunk, a late one goes again; a lost link, silence, or a notice ends the
operation. -/
def Obligations.CollectiveMessages : Prop :=
  ∀ (n : Nat) (g : Group) (o : CollOp) (s : State), s.env.serving = true → s.dp.group n = some g → s.dp.collOp n = some o →
    (let now := s.fb.plumb.ns
     (∀ c : Chunk, c.gnum = n → g.ready = true → g.snap = false →
       (c.gdig ≠ g.gdig → exec (.collectiveChunk c) s = .next (failOp s o stGroupMismatch (some .groupMismatch))) ∧
       (c.gdig = g.gdig → c.opseq < o.opseq → c.src < g.members.length →
         exec (.collectiveChunk c) s = .next (s.setDp (countDuplicate (ackChunk s.dp g c)))) ∧
       (c.gdig = g.gdig → o.opseq < c.opseq →
         exec (.collectiveChunk c) s = .next (failOp s o stCollMismatch (some .collMismatch))) ∧
       (c.gdig = g.gdig → c.opseq = o.opseq → c.opdig = o.opdig → exec (.collectiveChunk c) s = .next (runChunk s g o c))) ∧
     (∀ peer u, o.unacked.find? (fun u => g.device u.1 = peer) = some u → exec (.chunkAck n o.opseq peer) s =
       .next (let o' := { o with unacked := o.unacked.erase u, lastRx := now }
              settleOp (s.setDp (s.dp.setCollOp o')) o' g)) ∧
     (∃ d : DataPlane, exec (.chunkResend n o.opseq) s = .next (s.setDp d) ∧ d.mem = s.dp.mem ∧
       ((∀ u ∈ o.unacked, now < u.2.2.1 + 100000) → d.fabOut = s.dp.fabOut)) ∧
     ((∃ u ∈ o.unacked, u.2.1 + 5000000 ≤ now) → exec (.linkLoss n) s = .next (failOp s o stLinkLoss (some .linkLoss))) ∧
     (o.lastRx + g.collTo * 1000000 ≤ now →
       exec (.collTimeout n) s = .next (failOp s o stCollTimeout (some .collTimeout))) ∧
     (∀ c, g.snap = false → s.fb.fabricMgr.active = false →
       exec (.abortNotice n o.opseq c) s = .next (failOp s o (noticeStatus c) none)))

/-- Snapshots (R397 to R401, R405, R406): SNAP_COPY writes the regions into a slot, SNAP_SEND streams it or waits for the streams,
acknowledgements commit it; STEP_RECORD goes to every other member, waits for their acknowledgements, and is
written into a ring there; RECONSTRUCT and RESTORE write what was lost. -/
def Obligations.Snapshots : Prop :=
  (∀ (q seq op : Nat) (l : Launch) (g : Group) (s : State), AtHub s q seq [2] l op → s.dp.coll.holds q seq = false →
    usableGroup s.dp l.part (snapArgs l.const).gnum true = some g →
    (let a := snapArgs l.const
     let ends := fun (i : Instr) (st : Nat) => exec i s = .next (s.setDp (hubEnd s.dp q seq (some st)))
     (op = 1 → a.ok l.const = false → ends (.snapCopy q seq) stSnapInvalid) ∧
     (∀ b i data d1 d2 d3, op = 1 → a.ok l.const = true → g.rank < g.k →
       fabRead s.env s.dp l.part (l.addrs.headD 0) (16 * a.nreg) = .ok b →
       (∀ r ∈ regionsOf b a.nreg, r.2 % 64 = 0) → regionsTotal (regionsOf b a.nreg) + 4096 ≤ g.slotLen →
       chooseSlot s.env s.dp a.gnum g = .ok i → setCommitted s.env s.dp g i false = .ok d1 →
       readRegions s.env d1 l.part (regionsOf b a.nreg) = .ok data →
       fabWrite s.env (hubUsedAll s.env d1 l.part (regionsOf b a.nreg)) l.part (g.slotAt i + 4096) data = .ok d2 →
       fabWrite s.env d2 l.part (g.slotAt i) (SnapHdr.bytes ⟨a.gnum, g.roleByte, g.exposedFlag, a.step, data.length,
         s.fb.plumb.ns, g.gdig, shake32 data, []⟩) = .ok d3 →
       exec (.snapCopy q seq) s = .next (s.setDp (hubEnd d3 q seq none))) ∧
     (∀ d, op = 2 → a.ok l.const = true → s.dp.snapOp a.gnum = none →
       waitingNotice s.dp a.gnum (a.step % 2 ^ 32) = none →
       (if g.rank < g.k then sendSlot s.env s.dp l a g else awaitStreams s.env s.dp l a g) = .ok d →
       exec (.snapSend q seq) s = .next (s.setDp d)) ∧
     (∀ b, op = 3 → a.ok l.const = true → fabRead s.env s.dp l.part (l.addrs.headD 0) a.len = .ok b →
       ∃ d : DataPlane, exec (.stepRecord q seq) s = .next (s.setDp d) ∧ d.mem = s.dp.mem ∧
         d.coll.snaps = s.dp.coll.snaps ++ [⟨q, seq, l.part, a.gnum, a.step, true, 0,
           (List.range g.members.length).filter (· ≠ g.rank), [], []⟩]) ∧
     (∀ slots, op = 4 → a.ok l.const = true → a.lost.contains g.rank = true → distinct a.lost = true →
       (∀ r ∈ a.lost, r < g.members.length) →
       (let ss := (sourcesOf a.gnum a.step slots).filter (fun x => !a.lost.contains x.rank)
        (g.m < a.nlost ∨ sourcesComplete g a.lost ss = false → ends (.reconstruct q seq slots) stReconstructFailed) ∧
        (a.nlost ≤ g.m → sourcesComplete g a.lost ss = true → ∀ h data d1 d2, rebuild s.env a g ss = some (h, data) →
          data.length + 4096 ≤ g.slotLen → fabWrite s.env s.dp l.part (g.slotAt 0 + 4096) data = .ok d1 →
          fabWrite s.env d1 l.part (g.slotAt 0) h.bytes = .ok d2 →
          exec (.reconstruct q seq slots) s = .next (s.setDp (hubEnd d2 q seq none))))) ∧
     (∀ b i h data d, op = 5 → a.ok l.const = true → g.rank < g.k →
       fabRead s.env s.dp l.part (l.addrs.headD 0) (16 * a.nreg) = .ok b →
       slotOf s.env s.dp a.gnum g a.step = .ok (some (i, h)) → (∀ r ∈ regionsOf b a.nreg, r.2 % 64 = 0) →
       regionsTotal (regionsOf b a.nreg) ≤ h.len →
       fabRead s.env s.dp l.part (g.slotAt i + 4096) (min h.len (g.slotLen - 4096)) = .ok data →
       (let c := hubUsed s.env s.dp l.part false (g.slotAt i + 4096) data.length
        (shake32 data ≠ h.digest → exec (.restore q seq) s = .next (s.setDp (hubEnd c q seq (some stReconstructFailed)))) ∧
        (shake32 data = h.digest → writeRegions s.env l.part (regionsOf b a.nreg) data c = .ok d →
          exec (.restore q seq) s = .next (s.setDp (hubEnd d q seq none))))))) ∧
  (∀ (n : Nat) (g : Group) (o : SnapOp) (s : State), s.env.serving = true → s.dp.group n = some g → s.dp.snapOp n = some o →
    (∀ rank len dig data, g.k ≤ g.rank → rank < g.k → (∀ x ∈ o.streams, x.1 ≠ rank) → len + 4096 ≤ g.slotLen →
      o.streams.length + 1 < g.k → exec (.snapshotStream n o.step rank len dig data) s = .next (s.setDp (s.dp.setSnapOp { o with
        streams := o.streams ++ [(rank, len, dig)]
        parity := xorBytes o.parity (parityTerm (g.rank - g.k) rank (padTo len data)) }))) ∧
    (∀ k, g.k + k ∈ o.awaiting →
      (o.awaiting.erase (g.k + k) ≠ [] → exec (.parityAck n o.step k) s =
        .next (s.setDp (s.dp.setSnapOp { o with awaiting := o.awaiting.erase (g.k + k) }))) ∧
      (o.awaiting.erase (g.k + k) = [] → ∀ d, setCommitted s.env s.dp g o.slot true = .ok d →
        exec (.parityAck n o.step k) s = .next (s.setDp (hubEnd (dropHub d o.q o.seq) o.q o.seq none))))) ∧
  (∀ (n : Nat) (g : Group) (s : State), s.env.serving = true → s.dp.group n = some g → g.snap = true →
    (∀ (peer : Nat) (o : SnapOp), s.dp.collOp n = none → s.dp.coll.snaps.find? (fun o => o.record && o.gnum = n) = some o →
      o.awaiting.filter (fun r => g.device r ≠ peer) = [] → exec (.chunkAck n (o.step % 2 ^ 32) peer) s =
        .next (s.setDp (hubEnd (dropHub s.dp o.q o.seq) o.q o.seq none))) ∧
    (∀ (c : Chunk) (d : DataPlane), c.gnum = n → g.ready = true → c.gdig = g.gdig → c.src < g.members.length → c.src ≠ g.rank →
      c.data.length = 4096 → fabWrite s.env s.dp g.part (g.ring + (c.src * 16 + c.index % 16) * 4096) c.data = .ok d →
      exec (.collectiveChunk c) s = .next (s.setDp (ackChunk d g c))))

/-- The snapshot cadence and module loss (R402 to R404): the cadence comes into force at its time; the fabric manager counts a loss
once in 24 hours and orders restoration with the next spare; other modules pass the report on. -/
def Obligations.ModuleLoss : Prop :=
  (∀ (ms t : Nat) (s : State), s.awake = true → exec (.snapTauUpdate ms t) s =
    .next { s with fb := { s.fb with taus := s.fb.taus ++ [(ms % 2 ^ 32, t)] } }) ∧
  (∀ (dev : Nat) (s : State), s.awake = true →
    (s.fb.fabricMgr.active = true →
      ((∃ l ∈ s.fb.losses, s.fb.plumb.ns < l.1 + 86400000000000 ∧ l.2 = dev) → exec (.moduleLossReport dev) s = .next s) ∧
      ((∀ l ∈ s.fb.losses, s.fb.plumb.ns < l.1 + 86400000000000 → l.2 ≠ dev) → ∃ t : State,
        exec (.moduleLossReport dev) s = .next t ∧ (s.fb.plumb.ns, dev) ∈ t.fb.losses ∧
        (∀ sp, s.fb.cfg.spares.find? (fun x => x ≠ dev && !s.fb.spareUsed.contains x) = some sp →
          t.fb.spareUsed = s.fb.spareUsed ++ [sp]))) ∧
    (s.fb.fabricMgr.active = false → s.fb.cellMgr.active = true →
      exec (.moduleLossReport dev) s = .next (s.setDp (s.dp.send "module-loss" s.fb.fmAddr [dev] []))) ∧
    (s.fb.fabricMgr.active = false → s.fb.cellMgr.active = false → linksLost s.fb dev = true →
      exec (.moduleLossReport dev) s = .next (s.setDp (s.dp.send "module-loss" s.fb.reportTo [dev] []))))

/-! ### Registers of the host, aborts of engines -/

/-- Host accesses (R11, R12, R118, R246, R251, R291, R461, R469): a read of a read-clear counter returns it and leaves 0; a read
of the low word of a 64-bit counter latches its high word, which the next word's read returns; a write of another width or
alignment than an aligned 32 bits is ignored, and one to a plain register reads back; VF Enable and NumVFs; BAR2 and
AtomicOp requests. -/
def Obligations.HostAccess : Prop :=
  (∀ (fn off : Nat) (s : State), s.awake = true → fnExists s.dp fn = true → barDecodes s fn off = true →
    (off ∈ [0x501C, 0x5020, 0x5024, 0x5028, 0x6004] → ∃ t : State, exec (.counterReadClear fn off) s = .next t ∧
      t.dp.cpl = some (.data (leBytes 4 (readReg s fn off))) ∧ readReg t fn off = 0 ∧ t.dp.mem = s.dp.mem) ∧
    (off % 4 = 0 → 0xA000 ≤ off → telemOffsets.contains (off - 0xA000) = true → ∃ t : State,
      exec (.counterLowWordRead fn off) s = .next t ∧ t.dp.cpl = some (.data (leBytes 4 (readReg s fn off))) ∧
      (fn = 0 → readReg t fn off + readReg t fn (off + 4) * 2 ^ 32 = telemCounter s (off - 0xA000) % 2 ^ 64)) ∧
    (∀ (width : Nat) (v : U32), (width ≠ 4 ∨ off % 4 ≠ 0) → exec (.registerWrite .bar0 fn off width v) s = .next s) ∧
    (∀ v : U32, off ∈ [0x5004, 0x5008, 0x500C, 0x4004, 0x4008, 0x4014, 0x4018, 0x4024, 0x4028] → ∃ t : State,
      exec (.registerWrite .bar0 fn off 4 v) s = .next t ∧ readReg t fn off = v.toNat ∧
      ∀ o, o % 4 = 0 → o < 0x7000 → o ≠ off → readReg t fn o = readReg s fn o)) ∧
  (∀ (width : Nat) (v : U32) (s : State), s.awake = true → fnExists s.dp 0 = true →
    (s.env.serving = true → v.toNat.testBit 0 = true →
      exec (.registerWrite .sriov 0 0x8 width v) s = .next (s.setDp { s.dp with vfEnable := true })) ∧
    (s.dp.vfEnable = false → exec (.registerWrite .sriov 0 0x10 width v) s =
      .next (s.setDp { s.dp with numVfs := min 16 (v.toNat % 2 ^ 16) }))) ∧
  (∀ (addr len : Nat) (data : List Byte) (s : State), s.env.serving = true → s.dp.pcieDown = false →
    (accessCheck s.dp 0 none .write addr data.length = none → ∃ d : DataPlane,
      exec (.pfBar2DebugWindowAccess addr len (some data)) s = .next (s.setDp d) ∧ d.mem = s.dp.mem.write addr data) ∧
    (∀ e, accessCheck s.dp 0 none .write addr data.length = some e → ∃ d : DataPlane,
      exec (.pfBar2DebugWindowAccess addr len (some data)) s = .next (s.setDp d) ∧ d.mem = s.dp.mem) ∧
    (accessCheck s.dp 0 none .read addr len = none → poisonedAt s.dp.mem addr len = none → ∃ d : DataPlane,
      exec (.pfBar2DebugWindowAccess addr len none) s = .next (s.setDp d) ∧ d.mem = s.dp.mem ∧
      d.cpl = some (.data (readBytes s.dp.mem.dev addr len)))) ∧
  (∀ (fn addr : Nat) (s : State), s.awake = true → fnExists s.dp fn = true →
    exec (.pcieAtomicopRequest fn addr) s = .next (s.setDp { s.dp with cpl := some .unsupported }))

/-- Aborts at the engines (R204, R205, R288): ENGINE_ABORT empties the engine's queue and stops the tile's cores, and ends a hub
record that its engine has not begun; ENGINE_PREEMPTION_STOP frees an engine whose remote requests have been answered, and
changes no byte outside what the instruction was writing. -/
def Obligations.EngineAborts : Prop :=
  (∀ (t e : Nat) (l : TileLaunch) (s : State), s.env.serving = true → t < 168 → e < 9 → tileAborting s.dp t = some l →
    ∃ d : DataPlane, exec (.engineAbort t e) s = .next (s.setDp d) ∧ ((d.tile t).engine e).queue = [] ∧
      ((d.tile t).phase = .stopping ∨ (d.tile t).phase = .stopped) ∧ (d.tile t).patchBlocks = [] ∧
      (∀ c, ((d.tile t).core c).st.live = false) ∧
      (∀ n, n ≠ t → d.tile n = s.dp.tile n) ∧ d.mem = s.dp.mem) ∧
  (∀ (t e : Nat) (r : Running) (s : State), s.env.serving = true → t < 168 → ((s.dp.tile t).engine e).run = some r →
    ((s.dp.tile t).engine e).stopping = true → r.remote = 0 → r.todo = [] → ∃ d : DataPlane,
      exec (.enginePreemptionStop t e) s = .next (s.setDp d) ∧ (d.tile t).engine e = Engine.init ∧
      (e ≠ 0 → s.dp.narrow = [] → ∀ a, (∀ x ∈ r.undef, a < x.1 ∨ x.1 + x.2 ≤ a) →
        (∀ w ∈ r.writes.flatten, w.host = false → a < w.addr ∨ w.addr + w.data.length ≤ a) →
        byteAt d.mem.dev a = byteAt s.dp.mem.dev a) ∧
      ∀ n, n ≠ t → d.tile n = s.dp.tile n) ∧
  (∀ (g : Nat) (l : Launch) (s : State), s.env.serving = true →
    (hubAborting s.dp g .engine = [l] → exec (.engineAbort 168 g) s = .next (abortHub s l)) ∧
    (hubAborting s.dp g .stopping = [l] → exec (.enginePreemptionStop 168 g) s = .next (stopHub s l)))

/-! ### Power, reset, bring-up -/

/-- The 54 V feed (R3, R407, R483, R489, R490): PWR_EN closes the switch at a good VIN, after the hold; the rails' check ends in
bring-up or in an open switch; every loss of power and every module reset puts all state back but fuses, flash and what the
carrier drives, and below 30 V the input controller's latches clear too. -/
def Obligations.PowerPins : Prop :=
  (∀ s : State, s.mg.pins.pwrEn = true → exec .pwrEnAssert s = .next s) ∧
  (∀ s : State, s.mg.pins.pwrEn = false → s.mg.pins.thermTripN = true →
    exec .pwrEnAssert s = .next (s.setPins { s.mg.pins with pwrEn := true, railFail := false })) ∧
  (∀ s : State, s.mg.pins.pwrEn = false → s.mg.pins.thermTripN = false → s.mg.pins.hold = true →
    exec .pwrEnAssert s = .next (s.setPins { s.mg.pins with pwrEn := true, railFail := false, heldEn := true })) ∧
  (∀ s : State, s.mg.pins.pwrEn = false → s.mg.pins.thermTripN = false → s.mg.pins.hold = false →
    exec .pwrEnAssert s = .next (s.setPins { s.mg.pins with
      pwrEn := true, railFail := false, switchOn := s.mg.pins.switchOn || vinOk s.mg.pins.vinMv })) ∧
  (∀ s : State, s.mg.pins.switchOn = true → s.mg.pins.pwrGood = false →
    exec (.pwrGoodAssert false) s = .next (s.setPins { s.mg.pins with switchOn := false, railFail := true })) ∧
  (∀ s : State, s.mg.pins.switchOn = true → s.mg.pins.pwrGood = false → ∃ t : State,
    exec (.pwrGoodAssert true) s = .next t ∧ ResetOf s t (if s.mg.pins.modResetN then .off else .primer) ∧
    t.mg.pins.pwrGood = true ∧ t.mg.pins.switchOn = true) ∧
  (∀ s : State, s.mg.pins.pwrEn = true → ∃ t : State, exec .pwrEnDeassert s = .next t ∧ PowerLost s t ∧
    t.mg.pins.pwrEn = false ∧ t.mg.pins.hold = true ∧ t.mg.pins.heldEn = false) ∧
  (∀ s : State, s.mg.pins.hold = true → s.mg.pins.thermTripN = false → s.mg.pins.heldEn = true → s.mg.pins.pwrEn = true →
    exec .pwrEnHoldExpiry s = .next (s.setPins { s.mg.pins with
      hold := false, heldEn := false, switchOn := s.mg.pins.switchOn || vinOk s.mg.pins.vinMv })) ∧
  (∀ s : State, s.mg.pins.hold = true → (s.mg.pins.heldEn && s.mg.pins.pwrEn && !s.mg.pins.thermTripN) = false →
    exec .pwrEnHoldExpiry s = .next (s.setPins { s.mg.pins with hold := false, heldEn := false })) ∧
  (∀ (mv : Nat) (s : State), mv < 44000 → 44000 ≤ s.mg.pins.vinMv → ∃ t : State,
    exec (.vinUndervoltage mv) s = .next t ∧ PowerLost s t ∧ t.mg.pins.vinMv = mv) ∧
  (∀ (mv : Nat) (s : State), 62000 < mv → ∃ t : State,
    exec (.vinOvervoltage mv) s = .next t ∧ PowerLost s t ∧ t.mg.pins.vinMv = mv) ∧
  (∀ (mv : Nat) (s : State), s.mg.pins.vinMv < 46000 → 46000 ≤ mv → mv ≤ 62000 →
    (s.mg.pins.pwrEn && !s.mg.pins.switchOn && !s.mg.pins.railFail && !s.mg.pins.thermTripN) = true → s.mg.pins.hold = false →
    exec (.switchOnThreshold mv) s = .next (s.setPins { s.mg.pins with vinMv := mv, switchOn := true })) ∧
  (∀ (mv : Nat) (s : State), s.mg.pins.vinMv < 46000 → 46000 ≤ mv → mv ≤ 62000 →
    (s.mg.pins.pwrEn && !s.mg.pins.switchOn && !s.mg.pins.railFail && !s.mg.pins.thermTripN) = true → s.mg.pins.hold = true →
    exec (.switchOnThreshold mv) s = .next (s.setPins { s.mg.pins with vinMv := mv, heldEn := true })) ∧
  (∀ (mv : Nat) (s : State), s.mg.pins.vinMv < 46000 → 46000 ≤ mv → mv ≤ 62000 →
    (s.mg.pins.pwrEn && !s.mg.pins.switchOn && !s.mg.pins.railFail && !s.mg.pins.thermTripN) = false →
    exec (.switchOnThreshold mv) s = .next (s.setPins { s.mg.pins with vinMv := mv })) ∧
  (∀ s : State, ∃ t : State, exec .inputControllerPowerOff s = .next t ∧ PowerLost s t ∧ t.mg.pins.vinMv < 30000 ∧
    t.mg.pins.thermTripN = false ∧ t.mg.pins.hold = false ∧ t.mg.pins.heldEn = false ∧ t.mg.pins.railFail = false) ∧
  (∀ s : State, s.mg.sec.resetDue = true → ∃ t : State, exec .deferredReset s = .next t ∧
    ResetOf s t (if s.mg.pins.modResetN then .off else .primer))

/-- MOD_RESET_N (R491): a low of 1 µs or longer resets the module, and its deassertion starts bring-up; a low of 0.5 µs or shorter
does nothing, and a command between the two is not well formed; while PWR_GOOD is low the pin has no effect. -/
def Obligations.ModResetPin : Prop :=
  (∀ ns : Nat, (Instr.modResetNAssert ns).wellFormed = (decide (ns ≤ 500) || decide (1000 ≤ ns))) ∧
  (∀ (ns : Nat) (s : State), ns ≤ 500 → exec (.modResetNAssert ns) s = .next s) ∧
  (∀ (ns : Nat) (s : State), 1000 ≤ ns → s.mg.pins.pwrGood = false →
    exec (.modResetNAssert ns) s = .next (s.setPins { s.mg.pins with modResetN := true })) ∧
  (∀ (ns : Nat) (s : State), 1000 ≤ ns → s.mg.pins.pwrGood = true → ∃ t : State, exec (.modResetNAssert ns) s = .next t ∧
    ResetOf s t .off ∧ t.mg.pins.modResetN = true ∧ t.mg.pins.pwrGood = true) ∧
  (∀ s : State, s.mg.pins.modResetN = true → s.mg.pins.pwrGood = false →
    exec .modResetNDeassert s = .next (s.setPins { s.mg.pins with modResetN := false })) ∧
  (∀ s : State, s.mg.pins.modResetN = true → s.mg.pins.pwrGood = true → ∃ t : State, exec .modResetNDeassert s = .next t ∧
    ResetOf s t .primer ∧ t.mg.pins.modResetN = false)

/-- Bring-up (R410 to R432): each phase's work and where it goes on; a failed check of Primer leaves the module mute, an image that
does not verify goes to RECOVERY, and the failures of R436 to SAFE with their cause. A core whose firmware image passes starts at offset 0, and a tile with one
that fails does not come up (R208, R429). -/
def Obligations.BringupPhases : Prop :=
  ∀ s : State,
    let b := s.mg.boot
    let falls := fun (i : Instr) (cause unit : Nat) => ∃ t : State, exec i s = .next t ∧ t.mg.boot.st = .safe ∧
      t.mg.boot.cause = cause ∧ t.mg.boot.unit = unit ∧ t.mg.pins.faultN = true ∧ t.dp = s.dp
    let goes := fun (i : Instr) (c : Boot) => exec i s = .next (s.setBoot c)
    (b.st = .primer → b.phase = 0 → s.mg.pins.pwrGood = true → s.mg.pins.modResetN = false →
      (∃ t : State, exec (.bringupStart true true) s = .next t ∧ t.mg.boot = { b with phase := 1 } ∧
        t.mg.regions.bootCount = (s.mg.regions.bootCount + 1) % 2 ^ 32 ∧ t.mg.bus.i3cOn = true ∧ t.mg.bus.hotJoin = true) ∧
      ∀ rom fuses, (rom && fuses) = false → ∃ t : State, exec (.bringupStart rom fuses) s = .next t ∧ t.mg.boot.st = .mute ∧
        t.mg.pins.faultN = true) ∧
    (b.st = .primer → b.phase = 1 →
      (verifyImage s.mg = none → ∃ t : State, exec .configurationVerify s = .next t ∧ t.mg.boot.st = .recovery ∧
        t.mg.pins.faultN = true) ∧
      ∀ img, verifyImage s.mg = some img →
        (configOk (sectOf img 1) = false → falls .configurationVerify 10 0) ∧
        (configOk (sectOf img 1) = true → ∃ t : State, exec .configurationVerify s = .next t ∧ t.mg.boot.st = .bringup ∧
          t.mg.boot.phase = 2 ∧ t.mg.boot.image = img ∧ t.fb.cfg = configFab (sectOf img 1) ∧ t.mg.flash = s.mg.flash)) ∧
    (s.inPhase 2 = true → ∀ r : TrainingResults,
      (r.d2dOk = false → falls (.interfaceTraining r) 3 0) ∧
      (r.d2dOk = true → ∀ pc, (r.hbmFail = some pc ∨ (r.hbmFail = none ∧ r.rowsUnrepairable = some pc)) →
        falls (.interfaceTraining r) 4 pc) ∧
      (r.d2dOk = true → r.hbmFail = none → r.rowsUnrepairable = none → ∃ t : State,
        exec (.interfaceTraining r) s = .next t ∧ t.mg.boot = { b with phase := 3, rowsRepaired := r.rowsRepaired } ∧
        ∀ i, i < 6 → r.links.getD i none = none → (t.fb.link i).st = .absent)) ∧
    (s.inPhase 3 = true →
      (∀ d i, d < 2 → b.slices.getD d 0 < sliceGoal s.mg.fuses d →
        goes (.bistSlice (.die d i true)) (b.sliceDone d) ∧ falls (.bistSlice (.die d i false)) 2 i) ∧
      (∀ i, b.slices.getD 2 0 < sliceGoal s.mg.fuses 2 →
        goes (.bistSlice (.hub i true)) (b.sliceDone 2) ∧ falls (.bistSlice (.hub i false)) 1 i) ∧
      (∀ t, t < 168 → s.mg.fuses.badTiles.contains t = false → b.slices.getD (t / 84) 0 < sliceGoal s.mg.fuses (t / 84) →
        (let c := (b.sliceDone (t / 84)).test t
         goes (.bistSlice (.tile t true)) c ∧ goes (.bistSlice (.tile t false)) (c.failTile t) ∧
         ∀ cols, goes (.bistSlice (.column t cols)) (cols.foldl (fun b k => b.failColumn t k) c))) ∧
      (b.hbmDone = false →
        (∀ pc rows, falls (.hbmMarchTest (some pc) rows) 4 pc) ∧
        ∀ rows, ∃ t : State, exec (.hbmMarchTest none rows) s = .next t ∧ t.mg.boot = { b with hbmDone := true } ∧
          ∀ a, a < 2 ^ 40 → byteAt t.dp.mem.dev a = 0) ∧
      (b.bistDone s.mg.fuses = true → ∃ t : State, exec .reconciliation s = .next t ∧ t.mg.boot.phase = 5 ∧
        t.dp.widths = scrimMap s.mg.fuses (fieldLog s.mg.flash) b ∧ t.mg.boot.ecol = columnsOf t.dp.widths)) ∧
    (s.inPhase 5 = true →
      (b.fwOk = false → ∀ bad : List CoreId,
        (let ok := fun (c : CoreId) (cls : Nat) => fwPasses (sectOf b.image 2) cls && !bad.contains c
         let starts := fun (k : Core) (good : Bool) => k.st = (if good then .running else .idle) ∧ k.pc = 0x070000000000
         ∃ t : State, exec (.firmwareDelivery bad) s = .next t ∧ t.mg.boot.fwOk = true ∧
          (∀ n, n ∈ t.mg.boot.tileFail ↔
            (n ∈ b.tileFail ∨ (n < 168 ∧ s.dp.enabled n = true ∧ ∃ i, i < 8 ∧ ok (.tile n i) i = false))) ∧
          (∀ h, h < 64 → starts (t.dp.core (.hub h)) (ok (.hub h) 8)) ∧
          (∀ n i, n < 168 → i < 8 → s.dp.enabled n = true → starts (t.dp.core (.tile n i)) (ok (.tile n i) i)) ∧
          (∀ n, n < 168 → s.dp.enabled n = false → t.dp.tile n = s.dp.tile n))) ∧
      (b.fwOk = true → b.katDone = false → ∀ r : KatResults,
        (∀ e, r.hubFail = some e → falls (.knownAnswerRun r) 7 e) ∧
        (r.hubFail = none → r.meteringFail = true → falls (.knownAnswerRun r) 6 0) ∧
        (r.hubFail = none → r.meteringFail = false → r.securityFail = true → falls (.knownAnswerRun r) 5 0) ∧
        (r.hubFail = none → r.meteringFail = false → r.securityFail = false → r.columnFail = [] → goes (.knownAnswerRun r)
          { r.tileFail.foldl (fun b t => b.failTile t) b with katDone := true })) ∧
      (b.katDone = true → b.loadDone = false → ∀ bad, goes (.loadRun bad)
        { bad.foldl (fun b t => b.failTile t) b with loadDone := true }) ∧
      (b.loadDone = true → b.mapped = 1 → ∃ t : State, exec .reconciliation s = .next t ∧
        t.mg.boot.mapped = 2 ∧ t.dp.widths = scrimMap s.mg.fuses (fieldLog s.mg.flash) b))

/-- Thermal pauses of bring-up (R425): a hottest sensor above 100 °C pauses BIST and known-answer runs, so that none of their
commands does anything; they go on once it reads 90 °C or less; pauses of more than 24 s in all end in SAFE, cause THERMAL. -/
def Obligations.ThermalPauses : Prop :=
  ∀ s : State, s.mg.boot.st = .bringup → (s.mg.boot.phase = 3 ∨ s.mg.boot.phase = 5) →
    (let b := s.mg.boot
     (b.paused = false → b.pausedMs ≤ 24000 → ∀ (c : Int) (ms : Nat),
       exec (.thermalPause c ms) s = .next (s.setBoot { b with paused := decide (10000 < c) })) ∧
     (b.paused = true →
       (∀ (c : Int) (ms : Nat), b.pausedMs + ms ≤ 24000 →
         exec (.thermalPause c ms) s = .next (s.setBoot { b with paused := decide (9000 < c), pausedMs := b.pausedMs + ms })) ∧
       (∀ (c : Int) (ms : Nat), 24000 < b.pausedMs + ms → ∃ t : State, exec (.thermalPause c ms) s = .next t ∧
         t.mg.boot.st = .safe ∧ t.mg.boot.cause = 8 ∧ t.mg.pins.faultN = true ∧ t.dp = s.dp) ∧
       (∀ r, exec (.bistSlice r) s = .next s) ∧ (∀ f rows, exec (.hbmMarchTest f rows) s = .next s) ∧
       (∀ r, exec (.knownAnswerRun r) s = .next s)))

/-- The outcome of bring-up, its watchdog and recovery (R411, R417, R426, R432, R433, R444): the final state follows from the columns and
the planned links; the field log goes on by one; a chunk is programmed and a commit resets, or leaves its result. -/
def Obligations.BringupEnds : Prop :=
  ∀ s : State,
    let b := s.mg.boot
    let results := fun (i : Instr) (r : Nat) => exec i s = .next (s.recovResult r)
    (s.inPhase 5 = true → b.mapped = 2 → ∀ ms, ∃ t : State, exec (.bringupOutcome ms) s = .next t ∧
      t.mg.boot.st = (if columnsOf s.dp.widths < 20480 then .derated else if linkMissing s.fb then .degraded else .ready) ∧
      t.mg.boot.phase = 6 ∧ t.mg.boot.timeMs = ms % 2 ^ 32 ∧ t.mg.flash = putLog s.mg.flash (nextLog b (fieldLog s.mg.flash)) ∧
      t.mg.fuses.rollback = max s.mg.fuses.rollback s.mg.sec.rollImg ∧ t.dp.mem = s.dp.mem ∧
      (s.fb.plumb.gm = true → s.fb.plumb.tod = none → t.fb.plumb.aligned = true)) ∧
    (b.st = .safe → b.phase ≠ 6 → ∀ ms, ∃ t : State, exec (.bringupOutcome ms) s = .next t ∧ t.mg.boot.st = .safe ∧
      t.mg.boot.cause = b.cause ∧ t.mg.flash = putLog s.mg.flash (nextLog b (fieldLog s.mg.flash)) ∧ t.mg.fuses = s.mg.fuses) ∧
    ((b.st = .primer ∨ b.st = .bringup) → ∃ t : State, exec .bringupWatchdog s = .next t ∧ t.mg.boot.st = .safe ∧
      t.mg.boot.cause = 9 ∧ t.mg.pins.faultN = true) ∧
    ((b.st = .recovery ∨ b.st = .safe) → exec .bringupWatchdog s = .next s) ∧
    (s.awake = true →
      (b.st ≠ .recovery → results .recovWriteChunk 1 ∧ results .recovCommit 1) ∧
      (b.st = .recovery → (uploadSession s 0 && uploadFree s 0) = false →
        results .recovWriteChunk 2 ∧ results .recovCommit 2) ∧
      (b.st = .recovery → uploadSession s 0 = true → uploadFree s 0 = true →
        (let off := s.dp.regWord 0 0x021004
         ((off % 65536 ≠ 0 ∨ imageMax ≤ off) → results .recovWriteChunk 3) ∧
         (off % 65536 = 0 → off < imageMax → ∃ t : State, exec .recovWriteChunk s = .next t ∧
           t.mg.boot.uploadBy = some 0 ∧ t.dp.regWord 0 0x021000 = 0 ∧
           readBytes t.mg.flash (imageBase + off) 65536 = recovWindow s.dp ∧
           ∀ a, (a < imageBase + off ∨ imageBase + off + 65536 ≤ a) → byteAt t.mg.flash a = byteAt s.mg.flash a) ∧
         (verifyImage s.mg ≠ none → exec .recovCommit s = .next s.restart) ∧
         (verifyImage s.mg = none → ∃ t : State, exec .recovCommit s = .next t ∧ t.mg.boot.st = .recovery ∧
           t.dp.regWord 0 0x021000 = 5 * 2 ^ 16 ∧ t.mg.boot.uploadBy = none))))

/-! ### Sessions, ownership, life cycle -/

/-- Opening and closing sessions (R441, R446 to R448, R451): certificates and attestation need no session; a challenge leaves one
nonce for an interface; a proof that is listed and verifies opens a session under a fresh number, four at most. -/
def Obligations.Sessions : Prop :=
  (∀ (m : Msg) (s : State), s.awake = true → ifaceUp s m.iface = true → m.payload.length ≤ 4032 →
    exec (.getCerts m) s = .next (s.respond m 0x01 stSuccess m.session (s.mg.regions.devCert ++ s.mg.regions.metCert)) ∧
    (s.mg.fuses.lcs = .blank ∨ s.mg.fuses.lcs = .retired → exec (.getAttest m) s = .next (s.refuse m 0x02 stSesState)) ∧
    (s.mg.fuses.lcs ≠ .blank → s.mg.fuses.lcs ≠ .retired → m.payload.length = 32 → exec (.getAttest m) s =
      .next (s.respond m 0x02 stSuccess m.session (attestBody s m.payload ++ signature 0 (attestBody s m.payload)))) ∧
    (m.iface < 2 →
      (∀ r, ∃ (t : State) (n : List Byte), exec (.openChallenge m r) s = .next t ∧
        SMap.get none t.mg.sec.nonces m.iface = some (n, r) ∧ t.mg.sec.sessions = s.mg.sec.sessions ∧
        ∀ i, i ≠ m.iface → SMap.get none t.mg.sec.nonces i = SMap.get none s.mg.sec.nonces i) ∧
      (∀ r pf, SMap.get none s.mg.sec.nonces m.iface = none →
        exec (.openResponse m r pf) s = .next (s.refuse m 0x04 stSesDenied)) ∧
      (∀ r pf n r', SMap.get none s.mg.sec.nonces m.iface = some (n, r') →
        (4 ≤ s.mg.sec.sessions.length → exec (.openResponse m r pf) s = .next (s.refuse m 0x04 stSesBusy)) ∧
        (s.mg.sec.sessions.length < 4 → r' = r → ∀ pub sig, pf = .key pub sig →
          (keyListed s r (shake32 pub) = false → exec (.openResponse m r pf) s = .next (s.refuse m 0x04 stSesDenied)) ∧
          (keyListed s r (shake32 pub) = true → Config.falconVerify pub (challengeBytes s m r n) sig = false →
            exec (.openResponse m r pf) s = .next (s.refuse m 0x04 stSesBadSig)) ∧
          (keyListed s r (shake32 pub) = true → Config.falconVerify pub (challengeBytes s m r n) sig = true → ∃ t : State,
            exec (.openResponse m r pf) s = .next t ∧ SMap.get none t.mg.sec.nonces m.iface = none ∧
            t.mg.sec.sessions = s.mg.sec.sessions ++ [⟨s.mg.sec.nextId, m.iface, r, true, shake32 pub, 0⟩]))))) ∧
  (∀ (m : Msg) (y : Session) (s : State), InSession s m y → ∃ t : State, exec (.close m) s = .next t ∧
    (∀ z ∈ t.mg.sec.sessions, z.id ≠ y.id) ∧ t.mg.sec.lock ≠ some y.id) ∧
  (∀ s : State, s.awake = true →
    (∀ i, ∃ t : State, exec (.nonceExpiry i) s = .next t ∧ SMap.get none t.mg.sec.nonces i = none ∧ t.dp = s.dp) ∧
    (∀ id, ∃ t : State, exec (.sessionIdleTimeout id) s = .next t ∧ (∀ z ∈ t.mg.sec.sessions, z.id ≠ id) ∧
      (∀ z ∈ s.mg.sec.sessions, z.id ≠ id → z ∈ t.mg.sec.sessions) ∧ t.mg.sec.lock ≠ some id))

/-- Commands of a session (R417, R443, R447 to R449, R453, R454, R458 to R460): an accepted command records its SEQ, does its work
and answers; a role that may not give it is refused with SES_DENIED and changes nothing else. -/
def Obligations.SessionCommands : Prop :=
  ∀ (m : Msg) (y : Session) (s : State), InSession s m y →
    (let a := s.accepted m y
     let good := fun (i : Instr) (cmd : Nat) (t : State) (pay : List Byte) =>
       exec i s = .next (t.respond m cmd stSuccess m.session pay)
     let bad := fun (i : Instr) (cmd st : Nat) => exec i s = .next (a.refuse m cmd st)
     let free := flashLockFree s.mg.sec y.id
     let image := ownerHeld s.mg y || y.role = .service
     (∃ pay, good (.readMode m) 0x10 a pay) ∧ (∃ pay, good (.readTelem m) 0x12 a pay) ∧
     (∀ n, if ownerHeld s.mg y || y.role = .operator then ∃ pay, good (.meterRead m n) 0x13 a pay
       else bad (.meterRead m n) 0x13 stSesDenied) ∧
     (∀ chg, modeAllowed s.mg chg y = false → bad (.setMode m chg) 0x11 stSesDenied) ∧
     (∀ chg, modeAllowed s.mg chg y = true →
       (modeOk (s.mg.sec.mode.apply chg) = false → bad (.setMode m chg) 0x11 stSesInvalid) ∧
       (modeOk (s.mg.sec.mode.apply chg) = true → chg.persist = false → chg.ecc = none →
         good (.setMode m chg) 0x11 (a.useMode (s.mg.sec.mode.apply chg)) [])) ∧
     (image = false → bad (.imageBegin m) 0x20 stSesDenied ∧ (∀ off, bad (.imageWrite m off) 0x21 stSesDenied) ∧
       bad (.imageCommit m) 0x22 stSesDenied ∧ (∀ v, bad (.calWrite m v) 0x30 stSesDenied) ∧
       bad (.restoreFactory m) 0x31 stSesDenied) ∧
     (image = true →
       (s.mg.fuses.lcs ≠ .blank → s.mg.fuses.lcs ≠ .retired →
         ((free && uploadFree s m.iface) = false → bad (.imageBegin m) 0x20 stSesBusy) ∧
         (free = true → uploadFree s m.iface = true → ∃ t : State, good (.imageBegin m) 0x20 t [] ∧
           t.mg.sec.lock = some y.id ∧ t.mg.boot.uploadBy = some m.iface ∧ t.mg.flash = s.mg.flash ∧ t.dp = s.dp)) ∧
       (∀ off, (s.mg.sec.lock ≠ some y.id → bad (.imageWrite m off) 0x21 stSesState) ∧
         (s.mg.sec.lock = some y.id → off % 2048 = 0 → off + 2048 ≤ imageMax → m.payload.length = 2056 →
           partNat m.payload 0 8 = off → good (.imageWrite m off) 0x21 { a with mg := { a.mg with
             flash := writeBytes s.mg.flash (imageBase + off) (m.payload.drop 8) } } [])) ∧
       (s.mg.sec.lock ≠ some y.id → bad (.imageCommit m) 0x22 stSesState) ∧
       (s.mg.sec.lock = some y.id → ∃ t : State, exec (.imageCommit m) s = .next t ∧ t.mg.sec.lock = none ∧
         t.mg.boot.uploadBy = none ∧ t.mg.flash = s.mg.flash ∧
         (s.mg.boot.st = .recovery → (verifyImage s.mg).isSome = true → t.mg.boot.st = .primer ∨ t.mg.boot.st = .off)) ∧
       (free = false → (∀ v, bad (.calWrite m v) 0x30 stSesBusy) ∧ bad (.restoreFactory m) 0x31 stSesBusy) ∧
       (free = true →
         (∀ v, v.mode = none → calOk v (storedMode s) = false → bad (.calWrite m v) 0x30 stSesInvalid) ∧
         (∀ v, v.mode = none → calOk v (storedMode s) = true → ∃ t : State, good (.calWrite m v) 0x30 t [] ∧
           t.mg.regions.ucalIntact = true ∧ t.mg.regions.ucal.map (fun u => (u.gain, u.offset)) = some (v.gain, v.offset) ∧
           t.fb = s.fb ∧ t.dp = s.dp) ∧
         good (.restoreFactory m) 0x31 { a with mg := { a.mg with regions :=
           { s.mg.regions with ucal := none, ucalIntact := true } } } [])) ∧
     ((ownerHeld s.mg y || y.role ≠ .owner) = true →
       (s.mg.sec.lock ≠ none → bad (.reset m) 0x40 stSesBusy) ∧
       (s.mg.sec.lock = none → good (.reset m) 0x40 (a.setSec { a.mg.sec with resetDue := true }) [])))

/-- Ownership and the life cycle (R426, R437, R439, R442): ENROLL_OWNER takes the next of four owner slots; each transition needs its
role and blows its fuses; the certificates are written on the way to PROVISIONED (R441); RETIRED is the end; TEST_UNLOCK and FLOG_CLEAR act in FIELD_RETURN alone. -/
def Obligations.LifeCycle : Prop :=
  ∀ (m : Msg) (y : Session) (s : State), InSession s m y →
    (let a := s.accepted m y
     let f := s.mg.fuses
     let bad := fun (i : Instr) (cmd st : Nat) => exec i s = .next (a.refuse m cmd st)
     let blows := fun (i : Instr) (g : Fuses) => ∃ t : State, exec i s = .next t ∧ t.mg.fuses = g ∧
       t.mg.sec.resetDue = true ∧ t.dp.mem = s.dp.mem ∧ t.dp.launches = s.dp.launches ∧ t.fb = s.fb
     (∀ key token, enrollAllowed s y (shake32 key) token = false → bad (.enrollOwner m key token) 0x50 stSesDenied) ∧
     (∀ key token, enrollAllowed s y (shake32 key) token = true →
       (4 ≤ f.owners.length → bad (.enrollOwner m key token) 0x50 stSesState) ∧
       (f.owners.length < 4 → ∃ t : State, exec (.enrollOwner m key token) s = .next t ∧
         t.mg.fuses = { f with owners := f.owners ++ [shake32 key] } ∧ activeOwner t.mg.fuses = some (shake32 key))) ∧
     (y.role = .service →
       (f.lcs = .test → s.mg.regions.factoryCal = true → blows (.lcTransition m .provisioned) { f with lcs := .provisioned } ∧
         ∃ t : State, exec (.lcTransition m .provisioned) s = .next t ∧ t.mg.regions.devCert = certificate f 1 ∧
           t.mg.regions.metCert = certificate f 2) ∧
       (f.lcs = .provisioned → y.byKey = true →
         (s.mg.sec.consent = true → blows (.lcTransition m .fieldReturn) { f with lcs := .fieldReturn }) ∧
         (s.mg.sec.consent = false → bad (.lcTransition m .fieldReturn) 0x51 stSesState)) ∧
       (f.lcs = .fieldReturn → y.byKey = true →
         (f.returns < 3 → blows (.lcTransition m .provisioned) { f with lcs := .provisioned, returns := f.returns + 1 }) ∧
         (3 ≤ f.returns → bad (.lcTransition m .provisioned) 0x51 stSesState)) ∧
       (f.lcs = .retired → ∀ x, bad (.lcTransition m x) 0x51 stSesState) ∧
       (f.lcs ≠ .retired → y.byKey = true → blows (.lcTransition m .retired) { f with lcs := .retired, keysDestroyed := true }) ∧
       (f.lcs ≠ .fieldReturn → bad (.testUnlock m) 0x52 stSesState ∧ bad (.flogClear m) 0x53 stSesState) ∧
       (f.lcs = .fieldReturn → ∃ t u : State, exec (.testUnlock m) s = .next t ∧ testEngineOpen t.mg = true ∧
         t.mg.fuses = f ∧ exec (.flogClear m) s = .next u ∧ u.mg.fuses = f ∧
         readBytes u.mg.flash (logBase 0) logSize = FieldLog.empty.bytes ∧
         readBytes u.mg.flash (logBase 1) logSize = FieldLog.empty.bytes)) ∧
     (ownerHeld s.mg y = true → f.lcs = .provisioned → ∃ t : State, exec (.lcTransition m .fieldReturn) s = .next t ∧
       t.mg.sec.consent = true ∧ t.mg.fuses = f) ∧
     (y.role ≠ .service → bad (.testUnlock m) 0x52 stSesDenied ∧ bad (.flogClear m) 0x53 stSesDenied))

/-- The management bus and JTAG (R437, R438, R452, R457): ENTDAA gives an address to a module that has none; PLDM answers over it; the
boundary is driven before a READY state only, and the test engine's instructions act as BYPASS while it is locked. While it is
open, memory access reads and writes device memory, fuses are only added to, and what internal scan shifts out is free (the
model's choice, log entry 76). -/
def Obligations.ManagementBus : Prop :=
  (∀ s : State, s.awake = true → s.mg.bus.i3cOn = true →
    (let b := s.mg.bus
     let bus := fun (i : Instr) (c : Bus) => exec i s = .next { s with mg := { s.mg with bus := c } }
     (∀ addr, b.dynAddr = none → addr < 128 →
       bus (.entdaa addr true) { b with resp := entdaaWord s.mg.fuses.prov, dynAddr := some addr, hotJoin := false } ∧
       bus (.entdaa addr false) { b with resp := entdaaWord s.mg.fuses.prov }) ∧
     (∀ addr won, b.dynAddr ≠ none → bus (.entdaa addr won) b) ∧
     bus .rstdaa { b with dynAddr := none } ∧
     (b.dynAddr ≠ none → (∀ e, e < 256 → bus (.setEndpointId e) { b with eid := e }) ∧
       (∀ i ∈ [Instr.getTid, .getPldmTypes], ∃ r, bus i { b with resp := r }) ∧
       (∀ n, ∃ r1 r2 r3, bus (.getPldmVersion n) { b with resp := r1 } ∧ bus (.getPldmCommands n) { b with resp := r2 } ∧
         bus (.getPdr n) { b with resp := r3 }) ∧
       (∀ n, 1 ≤ n → n ≤ 25 →
         bus (.getSensorReading n) { b with resp := Config.pldmReply 0x11 [(n : Int), sensorValue s n] }) ∧
       bus (.getStateSensorReadings 26) { b with resp := Config.pldmReply 0x21 [26, bootCode s.mg.boot.st] }))) ∧
  (∀ s : State, s.mg.boot.st ≠ .off →
    (let b := s.mg.bus
     let bus := fun (i : Instr) (c : Bus) => exec i s = .next { s with mg := { s.mg with bus := c } }
     let drives := fun (i : Instr) (ir : JtagIr) =>
       (s.mg.boot.st.isReady = false → bus i { b with ir := ir, driven := true, tdo := b.boundary }) ∧
       (s.mg.boot.st.isReady = true → bus i { b with ir := .bypass, driven := false, tdo := [false] })
     bus .bypass { b with ir := .bypass, driven := false, tdo := [false] } ∧
     (∃ c : Bus, bus .idcode c ∧ c.ir = .idcode ∧ c.tdo.length = 32 ∧ c.tdo.headD false = true) ∧
     (∀ x, bus (.samplePreload x) { b with ir := .sample, driven := false, tdo := b.boundary, boundary := x }) ∧
     drives .extest .extest ∧ drives .extestPulse .extestPulse ∧ drives .extestTrain .extestTrain ∧
     (testEngineOpen s.mg = false → ∀ op : TestOp,
       bus (.testEngineInstruction op) { b with ir := .bypass, driven := false, tdo := [false] }))) ∧
  (∀ (op : TestOp) (s : State), s.mg.boot.st ≠ .off → testEngineOpen s.mg = true → ∃ t : State,
    exec (.testEngineInstruction op) s = .next t ∧ t.mg.bus.ir = .testEngine ∧ t.mg.bus.driven = false ∧ t.fb = s.fb ∧
    (∀ bits, op = .scan bits → t.mg.bus.tdo.length = bits.length ∧ t.dp.mem = s.dp.mem ∧ t.mg.fuses = s.mg.fuses) ∧
    (∀ a n, op = .read a n → t.dp.mem = s.dp.mem ∧ t.mg.fuses = s.mg.fuses ∧
      (backedRange s.dp a n = true → t.mg.bus.tdo = bitsOf (readBytes s.dp.mem.dev a n))) ∧
    (∀ a bs, op = .write a bs → t.mg.fuses = s.mg.fuses ∧
      (backedRange s.dp a bs.length = true → t.dp.mem = s.dp.mem.write a bs) ∧
      (backedRange s.dp a bs.length = false → t.dp = s.dp)) ∧
    (∀ f, op = .fuse f → t.dp = s.dp ∧ t.mg.fuses = (burn s.mg f).fuses ∧
      (∀ x ∈ s.mg.fuses.badTiles, x ∈ t.mg.fuses.badTiles) ∧ (∀ x ∈ s.mg.fuses.badCols, x ∈ t.mg.fuses.badCols) ∧
      (t.mg.fuses.lcs = s.mg.fuses.lcs ∨ (s.mg.fuses.lcs = .blank ∧ t.mg.fuses.lcs = .test ∧ t.mg.sec.resetDue = true))))
end

