-- ==== Sys2Proof/Laws/State.lean ====
section
/-! SUPPORT. What each named update of the state leaves as it was and what it writes: one lemma for each field. -/

namespace Sys2Proof.Machine

/-! ### The whole state -/

@[simp] theorem State.setDp_dp (s : State) (d : DataPlane) : (s.setDp d).dp = d := rfl
@[simp] theorem State.setDp_fb (s : State) (d : DataPlane) : (s.setDp d).fb = s.fb := rfl
@[simp] theorem State.setDp_mg (s : State) (d : DataPlane) : (s.setDp d).mg = s.mg := rfl
@[simp] theorem State.setDp_pending (s : State) (d : DataPlane) : (s.setDp d).pending = s.pending := rfl
@[simp] theorem State.setBoot_dp (s : State) (b : Boot) : (s.setBoot b).dp = s.dp := rfl
@[simp] theorem State.setBoot_fb (s : State) (b : Boot) : (s.setBoot b).fb = s.fb := rfl
@[simp] theorem State.setBoot_mg (s : State) (b : Boot) : (s.setBoot b).mg = { s.mg with boot := b } := rfl
@[simp] theorem State.setBoot_pending (s : State) (b : Boot) : (s.setBoot b).pending = s.pending := rfl
@[simp] theorem State.setPins_dp (s : State) (p : Pins) : (s.setPins p).dp = s.dp := rfl
@[simp] theorem State.setPins_fb (s : State) (p : Pins) : (s.setPins p).fb = s.fb := rfl
@[simp] theorem State.setPins_mg (s : State) (p : Pins) : (s.setPins p).mg = { s.mg with pins := p } := rfl
@[simp] theorem State.setPins_pending (s : State) (p : Pins) : (s.setPins p).pending = s.pending := rfl
@[simp] theorem State.setSec_dp (s : State) (x : Security) : (s.setSec x).dp = s.dp := rfl
@[simp] theorem State.setSec_fb (s : State) (x : Security) : (s.setSec x).fb = s.fb := rfl
@[simp] theorem State.setSec_mg (s : State) (x : Security) : (s.setSec x).mg = { s.mg with sec := x } := rfl
@[simp] theorem State.setSec_pending (s : State) (x : Security) : (s.setSec x).pending = s.pending := rfl
@[simp] theorem State.setLink_dp (s : State) (i : Nat) (l : Link) : (s.setLink i l).dp = s.dp := rfl
@[simp] theorem State.setLink_fb (s : State) (i : Nat) (l : Link) : (s.setLink i l).fb = s.fb.setLink i l := rfl
@[simp] theorem State.setLink_mg (s : State) (i : Nat) (l : Link) : (s.setLink i l).mg = s.mg := rfl
@[simp] theorem State.setLink_pending (s : State) (i : Nat) (l : Link) : (s.setLink i l).pending = s.pending := rfl
@[simp] theorem State.answer_dp (s : State) (c : Completion) : (s.answer c).dp = { s.dp with cpl := some c } := rfl
@[simp] theorem State.answer_fb (s : State) (c : Completion) : (s.answer c).fb = s.fb := rfl
@[simp] theorem State.answer_mg (s : State) (c : Completion) : (s.answer c).mg = s.mg := rfl
@[simp] theorem State.answer_pending (s : State) (c : Completion) : (s.answer c).pending = s.pending := rfl
@[simp] theorem State.respond_dp (s : State) (m : Msg) (cmd st ses : Nat) (pl : List Byte) : (s.respond m cmd st ses pl).dp = sesResult s.dp m.iface 0 := rfl
@[simp] theorem State.respond_fb (s : State) (m : Msg) (cmd st ses : Nat) (pl : List Byte) : (s.respond m cmd st ses pl).fb = s.fb := rfl
@[simp] theorem State.respond_pending (s : State) (m : Msg) (cmd st ses : Nat) (pl : List Byte) : (s.respond m cmd st ses pl).pending = s.pending := rfl

/-! ### The data plane -/

@[simp] theorem DataPlane.setTile_mem (dp : DataPlane) (t : Nat) (x : Tile) : (dp.setTile t x).mem = dp.mem := rfl
@[simp] theorem DataPlane.setTile_tiles (dp : DataPlane) (t : Nat) (x : Tile) : (dp.setTile t x).tiles = SMap.set Tile.init dp.tiles t x := rfl
@[simp] theorem DataPlane.setTile_hubCores (dp : DataPlane) (t : Nat) (x : Tile) : (dp.setTile t x).hubCores = dp.hubCores := rfl
@[simp] theorem DataPlane.setTile_widths (dp : DataPlane) (t : Nat) (x : Tile) : (dp.setTile t x).widths = dp.widths := rfl
@[simp] theorem DataPlane.setTile_queues (dp : DataPlane) (t : Nat) (x : Tile) : (dp.setTile t x).queues = dp.queues := rfl
@[simp] theorem DataPlane.setTile_launches (dp : DataPlane) (t : Nat) (x : Tile) : (dp.setTile t x).launches = dp.launches := rfl
@[simp] theorem DataPlane.setTile_events (dp : DataPlane) (t : Nat) (x : Tile) : (dp.setTile t x).events = dp.events := rfl
@[simp] theorem DataPlane.setTile_combine (dp : DataPlane) (t : Nat) (x : Tile) : (dp.setTile t x).combine = dp.combine := rfl
@[simp] theorem DataPlane.setTile_served (dp : DataPlane) (t : Nat) (x : Tile) : (dp.setTile t x).served = dp.served := rfl
@[simp] theorem DataPlane.setTile_collector (dp : DataPlane) (t : Nat) (x : Tile) : (dp.setTile t x).collector = dp.collector := rfl
@[simp] theorem DataPlane.setTile_parts (dp : DataPlane) (t : Nat) (x : Tile) : (dp.setTile t x).parts = dp.parts := rfl
@[simp] theorem DataPlane.setTile_pools (dp : DataPlane) (t : Nat) (x : Tile) : (dp.setTile t x).pools = dp.pools := rfl
@[simp] theorem DataPlane.setTile_meter (dp : DataPlane) (t : Nat) (x : Tile) : (dp.setTile t x).meter = dp.meter := rfl
@[simp] theorem DataPlane.setTile_net (dp : DataPlane) (t : Nat) (x : Tile) : (dp.setTile t x).net = dp.net := rfl
@[simp] theorem DataPlane.setTile_services (dp : DataPlane) (t : Nat) (x : Tile) : (dp.setTile t x).services = dp.services := rfl
@[simp] theorem DataPlane.setTile_coll (dp : DataPlane) (t : Nat) (x : Tile) : (dp.setTile t x).coll = dp.coll := rfl
@[simp] theorem DataPlane.setTile_tagNext (dp : DataPlane) (t : Nat) (x : Tile) : (dp.setTile t x).tagNext = dp.tagNext := rfl
@[simp] theorem DataPlane.setTile_remoteOut (dp : DataPlane) (t : Nat) (x : Tile) : (dp.setTile t x).remoteOut = dp.remoteOut := rfl
@[simp] theorem DataPlane.setTile_remoteIn (dp : DataPlane) (t : Nat) (x : Tile) : (dp.setTile t x).remoteIn = dp.remoteIn := rfl
@[simp] theorem DataPlane.setTile_fabOut (dp : DataPlane) (t : Nat) (x : Tile) : (dp.setTile t x).fabOut = dp.fabOut := rfl
@[simp] theorem DataPlane.setTile_irqs (dp : DataPlane) (t : Nat) (x : Tile) : (dp.setTile t x).irqs = dp.irqs := rfl
@[simp] theorem DataPlane.setTile_regs (dp : DataPlane) (t : Nat) (x : Tile) : (dp.setTile t x).regs = dp.regs := rfl
@[simp] theorem DataPlane.setTile_telem (dp : DataPlane) (t : Nat) (x : Tile) : (dp.setTile t x).telem = dp.telem := rfl
@[simp] theorem DataPlane.setTile_latch (dp : DataPlane) (t : Nat) (x : Tile) : (dp.setTile t x).latch = dp.latch := rfl
@[simp] theorem DataPlane.setTile_vfEnable (dp : DataPlane) (t : Nat) (x : Tile) : (dp.setTile t x).vfEnable = dp.vfEnable := rfl
@[simp] theorem DataPlane.setTile_numVfs (dp : DataPlane) (t : Nat) (x : Tile) : (dp.setTile t x).numVfs = dp.numVfs := rfl
@[simp] theorem DataPlane.setTile_pcieDown (dp : DataPlane) (t : Nat) (x : Tile) : (dp.setTile t x).pcieDown = dp.pcieDown := rfl
@[simp] theorem DataPlane.setTile_aer (dp : DataPlane) (t : Nat) (x : Tile) : (dp.setTile t x).aer = dp.aer := rfl
@[simp] theorem DataPlane.setTile_narrow (dp : DataPlane) (t : Nat) (x : Tile) : (dp.setTile t x).narrow = dp.narrow := rfl
@[simp] theorem DataPlane.setTile_scrub (dp : DataPlane) (t : Nat) (x : Tile) : (dp.setTile t x).scrub = dp.scrub := rfl
@[simp] theorem DataPlane.setTile_collected (dp : DataPlane) (t : Nat) (x : Tile) : (dp.setTile t x).collected = dp.collected := rfl
@[simp] theorem DataPlane.setTile_hubQueue (dp : DataPlane) (t : Nat) (x : Tile) : (dp.setTile t x).hubQueue = dp.hubQueue := rfl
@[simp] theorem DataPlane.setTile_cpl (dp : DataPlane) (t : Nat) (x : Tile) : (dp.setTile t x).cpl = dp.cpl := rfl
@[simp] theorem DataPlane.setTile_fatal (dp : DataPlane) (t : Nat) (x : Tile) : (dp.setTile t x).fatal = dp.fatal := rfl
@[simp] theorem DataPlane.setTile_free (dp : DataPlane) (t : Nat) (x : Tile) : (dp.setTile t x).free = dp.free := rfl
@[simp] theorem DataPlane.setPart_mem (dp : DataPlane) (p : Nat) (x : Part) : (dp.setPart p x).mem = dp.mem := rfl
@[simp] theorem DataPlane.setPart_tiles (dp : DataPlane) (p : Nat) (x : Part) : (dp.setPart p x).tiles = dp.tiles := rfl
@[simp] theorem DataPlane.setPart_hubCores (dp : DataPlane) (p : Nat) (x : Part) : (dp.setPart p x).hubCores = dp.hubCores := rfl
@[simp] theorem DataPlane.setPart_widths (dp : DataPlane) (p : Nat) (x : Part) : (dp.setPart p x).widths = dp.widths := rfl
@[simp] theorem DataPlane.setPart_queues (dp : DataPlane) (p : Nat) (x : Part) : (dp.setPart p x).queues = dp.queues := rfl
@[simp] theorem DataPlane.setPart_launches (dp : DataPlane) (p : Nat) (x : Part) : (dp.setPart p x).launches = dp.launches := rfl
@[simp] theorem DataPlane.setPart_events (dp : DataPlane) (p : Nat) (x : Part) : (dp.setPart p x).events = dp.events := rfl
@[simp] theorem DataPlane.setPart_combine (dp : DataPlane) (p : Nat) (x : Part) : (dp.setPart p x).combine = dp.combine := rfl
@[simp] theorem DataPlane.setPart_served (dp : DataPlane) (p : Nat) (x : Part) : (dp.setPart p x).served = dp.served := rfl
@[simp] theorem DataPlane.setPart_collector (dp : DataPlane) (p : Nat) (x : Part) : (dp.setPart p x).collector = dp.collector := rfl
@[simp] theorem DataPlane.setPart_parts (dp : DataPlane) (p : Nat) (x : Part) : (dp.setPart p x).parts = SMap.set Part.init dp.parts p x := rfl
@[simp] theorem DataPlane.setPart_pools (dp : DataPlane) (p : Nat) (x : Part) : (dp.setPart p x).pools = dp.pools := rfl
@[simp] theorem DataPlane.setPart_meter (dp : DataPlane) (p : Nat) (x : Part) : (dp.setPart p x).meter = dp.meter := rfl
@[simp] theorem DataPlane.setPart_net (dp : DataPlane) (p : Nat) (x : Part) : (dp.setPart p x).net = dp.net := rfl
@[simp] theorem DataPlane.setPart_services (dp : DataPlane) (p : Nat) (x : Part) : (dp.setPart p x).services = dp.services := rfl
@[simp] theorem DataPlane.setPart_coll (dp : DataPlane) (p : Nat) (x : Part) : (dp.setPart p x).coll = dp.coll := rfl
@[simp] theorem DataPlane.setPart_tagNext (dp : DataPlane) (p : Nat) (x : Part) : (dp.setPart p x).tagNext = dp.tagNext := rfl
@[simp] theorem DataPlane.setPart_remoteOut (dp : DataPlane) (p : Nat) (x : Part) : (dp.setPart p x).remoteOut = dp.remoteOut := rfl
@[simp] theorem DataPlane.setPart_remoteIn (dp : DataPlane) (p : Nat) (x : Part) : (dp.setPart p x).remoteIn = dp.remoteIn := rfl
@[simp] theorem DataPlane.setPart_fabOut (dp : DataPlane) (p : Nat) (x : Part) : (dp.setPart p x).fabOut = dp.fabOut := rfl
@[simp] theorem DataPlane.setPart_irqs (dp : DataPlane) (p : Nat) (x : Part) : (dp.setPart p x).irqs = dp.irqs := rfl
@[simp] theorem DataPlane.setPart_regs (dp : DataPlane) (p : Nat) (x : Part) : (dp.setPart p x).regs = dp.regs := rfl
@[simp] theorem DataPlane.setPart_telem (dp : DataPlane) (p : Nat) (x : Part) : (dp.setPart p x).telem = dp.telem := rfl
@[simp] theorem DataPlane.setPart_latch (dp : DataPlane) (p : Nat) (x : Part) : (dp.setPart p x).latch = dp.latch := rfl
@[simp] theorem DataPlane.setPart_vfEnable (dp : DataPlane) (p : Nat) (x : Part) : (dp.setPart p x).vfEnable = dp.vfEnable := rfl
@[simp] theorem DataPlane.setPart_numVfs (dp : DataPlane) (p : Nat) (x : Part) : (dp.setPart p x).numVfs = dp.numVfs := rfl
@[simp] theorem DataPlane.setPart_pcieDown (dp : DataPlane) (p : Nat) (x : Part) : (dp.setPart p x).pcieDown = dp.pcieDown := rfl
@[simp] theorem DataPlane.setPart_aer (dp : DataPlane) (p : Nat) (x : Part) : (dp.setPart p x).aer = dp.aer := rfl
@[simp] theorem DataPlane.setPart_narrow (dp : DataPlane) (p : Nat) (x : Part) : (dp.setPart p x).narrow = dp.narrow := rfl
@[simp] theorem DataPlane.setPart_scrub (dp : DataPlane) (p : Nat) (x : Part) : (dp.setPart p x).scrub = dp.scrub := rfl
@[simp] theorem DataPlane.setPart_collected (dp : DataPlane) (p : Nat) (x : Part) : (dp.setPart p x).collected = dp.collected := rfl
@[simp] theorem DataPlane.setPart_hubQueue (dp : DataPlane) (p : Nat) (x : Part) : (dp.setPart p x).hubQueue = dp.hubQueue := rfl
@[simp] theorem DataPlane.setPart_cpl (dp : DataPlane) (p : Nat) (x : Part) : (dp.setPart p x).cpl = dp.cpl := rfl
@[simp] theorem DataPlane.setPart_fatal (dp : DataPlane) (p : Nat) (x : Part) : (dp.setPart p x).fatal = dp.fatal := rfl
@[simp] theorem DataPlane.setPart_free (dp : DataPlane) (p : Nat) (x : Part) : (dp.setPart p x).free = dp.free := rfl
@[simp] theorem DataPlane.setQueue_mem (dp : DataPlane) (q : Nat) (x : Queue) : (dp.setQueue q x).mem = dp.mem := rfl
@[simp] theorem DataPlane.setQueue_tiles (dp : DataPlane) (q : Nat) (x : Queue) : (dp.setQueue q x).tiles = dp.tiles := rfl
@[simp] theorem DataPlane.setQueue_hubCores (dp : DataPlane) (q : Nat) (x : Queue) : (dp.setQueue q x).hubCores = dp.hubCores := rfl
@[simp] theorem DataPlane.setQueue_widths (dp : DataPlane) (q : Nat) (x : Queue) : (dp.setQueue q x).widths = dp.widths := rfl
@[simp] theorem DataPlane.setQueue_queues (dp : DataPlane) (q : Nat) (x : Queue) : (dp.setQueue q x).queues = SMap.set Queue.init dp.queues q x := rfl
@[simp] theorem DataPlane.setQueue_launches (dp : DataPlane) (q : Nat) (x : Queue) : (dp.setQueue q x).launches = dp.launches := rfl
@[simp] theorem DataPlane.setQueue_events (dp : DataPlane) (q : Nat) (x : Queue) : (dp.setQueue q x).events = dp.events := rfl
@[simp] theorem DataPlane.setQueue_combine (dp : DataPlane) (q : Nat) (x : Queue) : (dp.setQueue q x).combine = dp.combine := rfl
@[simp] theorem DataPlane.setQueue_served (dp : DataPlane) (q : Nat) (x : Queue) : (dp.setQueue q x).served = dp.served := rfl
@[simp] theorem DataPlane.setQueue_collector (dp : DataPlane) (q : Nat) (x : Queue) : (dp.setQueue q x).collector = dp.collector := rfl
@[simp] theorem DataPlane.setQueue_parts (dp : DataPlane) (q : Nat) (x : Queue) : (dp.setQueue q x).parts = dp.parts := rfl
@[simp] theorem DataPlane.setQueue_pools (dp : DataPlane) (q : Nat) (x : Queue) : (dp.setQueue q x).pools = dp.pools := rfl
@[simp] theorem DataPlane.setQueue_meter (dp : DataPlane) (q : Nat) (x : Queue) : (dp.setQueue q x).meter = dp.meter := rfl
@[simp] theorem DataPlane.setQueue_net (dp : DataPlane) (q : Nat) (x : Queue) : (dp.setQueue q x).net = dp.net := rfl
@[simp] theorem DataPlane.setQueue_services (dp : DataPlane) (q : Nat) (x : Queue) : (dp.setQueue q x).services = dp.services := rfl
@[simp] theorem DataPlane.setQueue_coll (dp : DataPlane) (q : Nat) (x : Queue) : (dp.setQueue q x).coll = dp.coll := rfl
@[simp] theorem DataPlane.setQueue_tagNext (dp : DataPlane) (q : Nat) (x : Queue) : (dp.setQueue q x).tagNext = dp.tagNext := rfl
@[simp] theorem DataPlane.setQueue_remoteOut (dp : DataPlane) (q : Nat) (x : Queue) : (dp.setQueue q x).remoteOut = dp.remoteOut := rfl
@[simp] theorem DataPlane.setQueue_remoteIn (dp : DataPlane) (q : Nat) (x : Queue) : (dp.setQueue q x).remoteIn = dp.remoteIn := rfl
@[simp] theorem DataPlane.setQueue_fabOut (dp : DataPlane) (q : Nat) (x : Queue) : (dp.setQueue q x).fabOut = dp.fabOut := rfl
@[simp] theorem DataPlane.setQueue_irqs (dp : DataPlane) (q : Nat) (x : Queue) : (dp.setQueue q x).irqs = dp.irqs := rfl
@[simp] theorem DataPlane.setQueue_regs (dp : DataPlane) (q : Nat) (x : Queue) : (dp.setQueue q x).regs = dp.regs := rfl
@[simp] theorem DataPlane.setQueue_telem (dp : DataPlane) (q : Nat) (x : Queue) : (dp.setQueue q x).telem = dp.telem := rfl
@[simp] theorem DataPlane.setQueue_latch (dp : DataPlane) (q : Nat) (x : Queue) : (dp.setQueue q x).latch = dp.latch := rfl
@[simp] theorem DataPlane.setQueue_vfEnable (dp : DataPlane) (q : Nat) (x : Queue) : (dp.setQueue q x).vfEnable = dp.vfEnable := rfl
@[simp] theorem DataPlane.setQueue_numVfs (dp : DataPlane) (q : Nat) (x : Queue) : (dp.setQueue q x).numVfs = dp.numVfs := rfl
@[simp] theorem DataPlane.setQueue_pcieDown (dp : DataPlane) (q : Nat) (x : Queue) : (dp.setQueue q x).pcieDown = dp.pcieDown := rfl
@[simp] theorem DataPlane.setQueue_aer (dp : DataPlane) (q : Nat) (x : Queue) : (dp.setQueue q x).aer = dp.aer := rfl
@[simp] theorem DataPlane.setQueue_narrow (dp : DataPlane) (q : Nat) (x : Queue) : (dp.setQueue q x).narrow = dp.narrow := rfl
@[simp] theorem DataPlane.setQueue_scrub (dp : DataPlane) (q : Nat) (x : Queue) : (dp.setQueue q x).scrub = dp.scrub := rfl
@[simp] theorem DataPlane.setQueue_collected (dp : DataPlane) (q : Nat) (x : Queue) : (dp.setQueue q x).collected = dp.collected := rfl
@[simp] theorem DataPlane.setQueue_hubQueue (dp : DataPlane) (q : Nat) (x : Queue) : (dp.setQueue q x).hubQueue = dp.hubQueue := rfl
@[simp] theorem DataPlane.setQueue_cpl (dp : DataPlane) (q : Nat) (x : Queue) : (dp.setQueue q x).cpl = dp.cpl := rfl
@[simp] theorem DataPlane.setQueue_fatal (dp : DataPlane) (q : Nat) (x : Queue) : (dp.setQueue q x).fatal = dp.fatal := rfl
@[simp] theorem DataPlane.setQueue_free (dp : DataPlane) (q : Nat) (x : Queue) : (dp.setQueue q x).free = dp.free := rfl
@[simp] theorem DataPlane.setNet_mem (dp : DataPlane) (n : Net) : (dp.setNet n).mem = dp.mem := rfl
@[simp] theorem DataPlane.setNet_tiles (dp : DataPlane) (n : Net) : (dp.setNet n).tiles = dp.tiles := rfl
@[simp] theorem DataPlane.setNet_hubCores (dp : DataPlane) (n : Net) : (dp.setNet n).hubCores = dp.hubCores := rfl
@[simp] theorem DataPlane.setNet_widths (dp : DataPlane) (n : Net) : (dp.setNet n).widths = dp.widths := rfl
@[simp] theorem DataPlane.setNet_queues (dp : DataPlane) (n : Net) : (dp.setNet n).queues = dp.queues := rfl
@[simp] theorem DataPlane.setNet_launches (dp : DataPlane) (n : Net) : (dp.setNet n).launches = dp.launches := rfl
@[simp] theorem DataPlane.setNet_events (dp : DataPlane) (n : Net) : (dp.setNet n).events = dp.events := rfl
@[simp] theorem DataPlane.setNet_combine (dp : DataPlane) (n : Net) : (dp.setNet n).combine = dp.combine := rfl
@[simp] theorem DataPlane.setNet_served (dp : DataPlane) (n : Net) : (dp.setNet n).served = dp.served := rfl
@[simp] theorem DataPlane.setNet_collector (dp : DataPlane) (n : Net) : (dp.setNet n).collector = dp.collector := rfl
@[simp] theorem DataPlane.setNet_parts (dp : DataPlane) (n : Net) : (dp.setNet n).parts = dp.parts := rfl
@[simp] theorem DataPlane.setNet_pools (dp : DataPlane) (n : Net) : (dp.setNet n).pools = dp.pools := rfl
@[simp] theorem DataPlane.setNet_meter (dp : DataPlane) (n : Net) : (dp.setNet n).meter = dp.meter := rfl
@[simp] theorem DataPlane.setNet_net (dp : DataPlane) (n : Net) : (dp.setNet n).net = n := rfl
@[simp] theorem DataPlane.setNet_services (dp : DataPlane) (n : Net) : (dp.setNet n).services = dp.services := rfl
@[simp] theorem DataPlane.setNet_coll (dp : DataPlane) (n : Net) : (dp.setNet n).coll = dp.coll := rfl
@[simp] theorem DataPlane.setNet_tagNext (dp : DataPlane) (n : Net) : (dp.setNet n).tagNext = dp.tagNext := rfl
@[simp] theorem DataPlane.setNet_remoteOut (dp : DataPlane) (n : Net) : (dp.setNet n).remoteOut = dp.remoteOut := rfl
@[simp] theorem DataPlane.setNet_remoteIn (dp : DataPlane) (n : Net) : (dp.setNet n).remoteIn = dp.remoteIn := rfl
@[simp] theorem DataPlane.setNet_fabOut (dp : DataPlane) (n : Net) : (dp.setNet n).fabOut = dp.fabOut := rfl
@[simp] theorem DataPlane.setNet_irqs (dp : DataPlane) (n : Net) : (dp.setNet n).irqs = dp.irqs := rfl
@[simp] theorem DataPlane.setNet_regs (dp : DataPlane) (n : Net) : (dp.setNet n).regs = dp.regs := rfl
@[simp] theorem DataPlane.setNet_telem (dp : DataPlane) (n : Net) : (dp.setNet n).telem = dp.telem := rfl
@[simp] theorem DataPlane.setNet_latch (dp : DataPlane) (n : Net) : (dp.setNet n).latch = dp.latch := rfl
@[simp] theorem DataPlane.setNet_vfEnable (dp : DataPlane) (n : Net) : (dp.setNet n).vfEnable = dp.vfEnable := rfl
@[simp] theorem DataPlane.setNet_numVfs (dp : DataPlane) (n : Net) : (dp.setNet n).numVfs = dp.numVfs := rfl
@[simp] theorem DataPlane.setNet_pcieDown (dp : DataPlane) (n : Net) : (dp.setNet n).pcieDown = dp.pcieDown := rfl
@[simp] theorem DataPlane.setNet_aer (dp : DataPlane) (n : Net) : (dp.setNet n).aer = dp.aer := rfl
@[simp] theorem DataPlane.setNet_narrow (dp : DataPlane) (n : Net) : (dp.setNet n).narrow = dp.narrow := rfl
@[simp] theorem DataPlane.setNet_scrub (dp : DataPlane) (n : Net) : (dp.setNet n).scrub = dp.scrub := rfl
@[simp] theorem DataPlane.setNet_collected (dp : DataPlane) (n : Net) : (dp.setNet n).collected = dp.collected := rfl
@[simp] theorem DataPlane.setNet_hubQueue (dp : DataPlane) (n : Net) : (dp.setNet n).hubQueue = dp.hubQueue := rfl
@[simp] theorem DataPlane.setNet_cpl (dp : DataPlane) (n : Net) : (dp.setNet n).cpl = dp.cpl := rfl
@[simp] theorem DataPlane.setNet_fatal (dp : DataPlane) (n : Net) : (dp.setNet n).fatal = dp.fatal := rfl
@[simp] theorem DataPlane.setNet_free (dp : DataPlane) (n : Net) : (dp.setNet n).free = dp.free := rfl
@[simp] theorem DataPlane.setMeter_mem (dp : DataPlane) (m : Meter) : (dp.setMeter m).mem = dp.mem := rfl
@[simp] theorem DataPlane.setMeter_tiles (dp : DataPlane) (m : Meter) : (dp.setMeter m).tiles = dp.tiles := rfl
@[simp] theorem DataPlane.setMeter_hubCores (dp : DataPlane) (m : Meter) : (dp.setMeter m).hubCores = dp.hubCores := rfl
@[simp] theorem DataPlane.setMeter_widths (dp : DataPlane) (m : Meter) : (dp.setMeter m).widths = dp.widths := rfl
@[simp] theorem DataPlane.setMeter_queues (dp : DataPlane) (m : Meter) : (dp.setMeter m).queues = dp.queues := rfl
@[simp] theorem DataPlane.setMeter_launches (dp : DataPlane) (m : Meter) : (dp.setMeter m).launches = dp.launches := rfl
@[simp] theorem DataPlane.setMeter_events (dp : DataPlane) (m : Meter) : (dp.setMeter m).events = dp.events := rfl
@[simp] theorem DataPlane.setMeter_combine (dp : DataPlane) (m : Meter) : (dp.setMeter m).combine = dp.combine := rfl
@[simp] theorem DataPlane.setMeter_served (dp : DataPlane) (m : Meter) : (dp.setMeter m).served = dp.served := rfl
@[simp] theorem DataPlane.setMeter_collector (dp : DataPlane) (m : Meter) : (dp.setMeter m).collector = dp.collector := rfl
@[simp] theorem DataPlane.setMeter_parts (dp : DataPlane) (m : Meter) : (dp.setMeter m).parts = dp.parts := rfl
@[simp] theorem DataPlane.setMeter_pools (dp : DataPlane) (m : Meter) : (dp.setMeter m).pools = dp.pools := rfl
@[simp] theorem DataPlane.setMeter_meter (dp : DataPlane) (m : Meter) : (dp.setMeter m).meter = m := rfl
@[simp] theorem DataPlane.setMeter_net (dp : DataPlane) (m : Meter) : (dp.setMeter m).net = dp.net := rfl
@[simp] theorem DataPlane.setMeter_services (dp : DataPlane) (m : Meter) : (dp.setMeter m).services = dp.services := rfl
@[simp] theorem DataPlane.setMeter_coll (dp : DataPlane) (m : Meter) : (dp.setMeter m).coll = dp.coll := rfl
@[simp] theorem DataPlane.setMeter_tagNext (dp : DataPlane) (m : Meter) : (dp.setMeter m).tagNext = dp.tagNext := rfl
@[simp] theorem DataPlane.setMeter_remoteOut (dp : DataPlane) (m : Meter) : (dp.setMeter m).remoteOut = dp.remoteOut := rfl
@[simp] theorem DataPlane.setMeter_remoteIn (dp : DataPlane) (m : Meter) : (dp.setMeter m).remoteIn = dp.remoteIn := rfl
@[simp] theorem DataPlane.setMeter_fabOut (dp : DataPlane) (m : Meter) : (dp.setMeter m).fabOut = dp.fabOut := rfl
@[simp] theorem DataPlane.setMeter_irqs (dp : DataPlane) (m : Meter) : (dp.setMeter m).irqs = dp.irqs := rfl
@[simp] theorem DataPlane.setMeter_regs (dp : DataPlane) (m : Meter) : (dp.setMeter m).regs = dp.regs := rfl
@[simp] theorem DataPlane.setMeter_telem (dp : DataPlane) (m : Meter) : (dp.setMeter m).telem = dp.telem := rfl
@[simp] theorem DataPlane.setMeter_latch (dp : DataPlane) (m : Meter) : (dp.setMeter m).latch = dp.latch := rfl
@[simp] theorem DataPlane.setMeter_vfEnable (dp : DataPlane) (m : Meter) : (dp.setMeter m).vfEnable = dp.vfEnable := rfl
@[simp] theorem DataPlane.setMeter_numVfs (dp : DataPlane) (m : Meter) : (dp.setMeter m).numVfs = dp.numVfs := rfl
@[simp] theorem DataPlane.setMeter_pcieDown (dp : DataPlane) (m : Meter) : (dp.setMeter m).pcieDown = dp.pcieDown := rfl
@[simp] theorem DataPlane.setMeter_aer (dp : DataPlane) (m : Meter) : (dp.setMeter m).aer = dp.aer := rfl
@[simp] theorem DataPlane.setMeter_narrow (dp : DataPlane) (m : Meter) : (dp.setMeter m).narrow = dp.narrow := rfl
@[simp] theorem DataPlane.setMeter_scrub (dp : DataPlane) (m : Meter) : (dp.setMeter m).scrub = dp.scrub := rfl
@[simp] theorem DataPlane.setMeter_collected (dp : DataPlane) (m : Meter) : (dp.setMeter m).collected = dp.collected := rfl
@[simp] theorem DataPlane.setMeter_hubQueue (dp : DataPlane) (m : Meter) : (dp.setMeter m).hubQueue = dp.hubQueue := rfl
@[simp] theorem DataPlane.setMeter_cpl (dp : DataPlane) (m : Meter) : (dp.setMeter m).cpl = dp.cpl := rfl
@[simp] theorem DataPlane.setMeter_fatal (dp : DataPlane) (m : Meter) : (dp.setMeter m).fatal = dp.fatal := rfl
@[simp] theorem DataPlane.setMeter_free (dp : DataPlane) (m : Meter) : (dp.setMeter m).free = dp.free := rfl
@[simp] theorem DataPlane.setQp_mem (dp : DataPlane) (n : Nat) (x : Option Qp) : (dp.setQp n x).mem = dp.mem := rfl
@[simp] theorem DataPlane.setQp_tiles (dp : DataPlane) (n : Nat) (x : Option Qp) : (dp.setQp n x).tiles = dp.tiles := rfl
@[simp] theorem DataPlane.setQp_hubCores (dp : DataPlane) (n : Nat) (x : Option Qp) : (dp.setQp n x).hubCores = dp.hubCores := rfl
@[simp] theorem DataPlane.setQp_widths (dp : DataPlane) (n : Nat) (x : Option Qp) : (dp.setQp n x).widths = dp.widths := rfl
@[simp] theorem DataPlane.setQp_queues (dp : DataPlane) (n : Nat) (x : Option Qp) : (dp.setQp n x).queues = dp.queues := rfl
@[simp] theorem DataPlane.setQp_launches (dp : DataPlane) (n : Nat) (x : Option Qp) : (dp.setQp n x).launches = dp.launches := rfl
@[simp] theorem DataPlane.setQp_events (dp : DataPlane) (n : Nat) (x : Option Qp) : (dp.setQp n x).events = dp.events := rfl
@[simp] theorem DataPlane.setQp_combine (dp : DataPlane) (n : Nat) (x : Option Qp) : (dp.setQp n x).combine = dp.combine := rfl
@[simp] theorem DataPlane.setQp_served (dp : DataPlane) (n : Nat) (x : Option Qp) : (dp.setQp n x).served = dp.served := rfl
@[simp] theorem DataPlane.setQp_collector (dp : DataPlane) (n : Nat) (x : Option Qp) : (dp.setQp n x).collector = dp.collector := rfl
@[simp] theorem DataPlane.setQp_parts (dp : DataPlane) (n : Nat) (x : Option Qp) : (dp.setQp n x).parts = dp.parts := rfl
@[simp] theorem DataPlane.setQp_pools (dp : DataPlane) (n : Nat) (x : Option Qp) : (dp.setQp n x).pools = dp.pools := rfl
@[simp] theorem DataPlane.setQp_meter (dp : DataPlane) (n : Nat) (x : Option Qp) : (dp.setQp n x).meter = dp.meter := rfl
@[simp] theorem DataPlane.setQp_services (dp : DataPlane) (n : Nat) (x : Option Qp) : (dp.setQp n x).services = dp.services := rfl
@[simp] theorem DataPlane.setQp_coll (dp : DataPlane) (n : Nat) (x : Option Qp) : (dp.setQp n x).coll = dp.coll := rfl
@[simp] theorem DataPlane.setQp_tagNext (dp : DataPlane) (n : Nat) (x : Option Qp) : (dp.setQp n x).tagNext = dp.tagNext := rfl
@[simp] theorem DataPlane.setQp_remoteOut (dp : DataPlane) (n : Nat) (x : Option Qp) : (dp.setQp n x).remoteOut = dp.remoteOut := rfl
@[simp] theorem DataPlane.setQp_remoteIn (dp : DataPlane) (n : Nat) (x : Option Qp) : (dp.setQp n x).remoteIn = dp.remoteIn := rfl
@[simp] theorem DataPlane.setQp_fabOut (dp : DataPlane) (n : Nat) (x : Option Qp) : (dp.setQp n x).fabOut = dp.fabOut := rfl
@[simp] theorem DataPlane.setQp_irqs (dp : DataPlane) (n : Nat) (x : Option Qp) : (dp.setQp n x).irqs = dp.irqs := rfl
@[simp] theorem DataPlane.setQp_regs (dp : DataPlane) (n : Nat) (x : Option Qp) : (dp.setQp n x).regs = dp.regs := rfl
@[simp] theorem DataPlane.setQp_telem (dp : DataPlane) (n : Nat) (x : Option Qp) : (dp.setQp n x).telem = dp.telem := rfl
@[simp] theorem DataPlane.setQp_latch (dp : DataPlane) (n : Nat) (x : Option Qp) : (dp.setQp n x).latch = dp.latch := rfl
@[simp] theorem DataPlane.setQp_vfEnable (dp : DataPlane) (n : Nat) (x : Option Qp) : (dp.setQp n x).vfEnable = dp.vfEnable := rfl
@[simp] theorem DataPlane.setQp_numVfs (dp : DataPlane) (n : Nat) (x : Option Qp) : (dp.setQp n x).numVfs = dp.numVfs := rfl
@[simp] theorem DataPlane.setQp_pcieDown (dp : DataPlane) (n : Nat) (x : Option Qp) : (dp.setQp n x).pcieDown = dp.pcieDown := rfl
@[simp] theorem DataPlane.setQp_aer (dp : DataPlane) (n : Nat) (x : Option Qp) : (dp.setQp n x).aer = dp.aer := rfl
@[simp] theorem DataPlane.setQp_narrow (dp : DataPlane) (n : Nat) (x : Option Qp) : (dp.setQp n x).narrow = dp.narrow := rfl
@[simp] theorem DataPlane.setQp_scrub (dp : DataPlane) (n : Nat) (x : Option Qp) : (dp.setQp n x).scrub = dp.scrub := rfl
@[simp] theorem DataPlane.setQp_collected (dp : DataPlane) (n : Nat) (x : Option Qp) : (dp.setQp n x).collected = dp.collected := rfl
@[simp] theorem DataPlane.setQp_hubQueue (dp : DataPlane) (n : Nat) (x : Option Qp) : (dp.setQp n x).hubQueue = dp.hubQueue := rfl
@[simp] theorem DataPlane.setQp_cpl (dp : DataPlane) (n : Nat) (x : Option Qp) : (dp.setQp n x).cpl = dp.cpl := rfl
@[simp] theorem DataPlane.setQp_fatal (dp : DataPlane) (n : Nat) (x : Option Qp) : (dp.setQp n x).fatal = dp.fatal := rfl
@[simp] theorem DataPlane.setQp_free (dp : DataPlane) (n : Nat) (x : Option Qp) : (dp.setQp n x).free = dp.free := rfl
@[simp] theorem DataPlane.setAssoc_mem (dp : DataPlane) (n : Nat) (x : Option Assoc) : (dp.setAssoc n x).mem = dp.mem := rfl
@[simp] theorem DataPlane.setAssoc_tiles (dp : DataPlane) (n : Nat) (x : Option Assoc) : (dp.setAssoc n x).tiles = dp.tiles := rfl
@[simp] theorem DataPlane.setAssoc_hubCores (dp : DataPlane) (n : Nat) (x : Option Assoc) : (dp.setAssoc n x).hubCores = dp.hubCores := rfl
@[simp] theorem DataPlane.setAssoc_widths (dp : DataPlane) (n : Nat) (x : Option Assoc) : (dp.setAssoc n x).widths = dp.widths := rfl
@[simp] theorem DataPlane.setAssoc_queues (dp : DataPlane) (n : Nat) (x : Option Assoc) : (dp.setAssoc n x).queues = dp.queues := rfl
@[simp] theorem DataPlane.setAssoc_launches (dp : DataPlane) (n : Nat) (x : Option Assoc) : (dp.setAssoc n x).launches = dp.launches := rfl
@[simp] theorem DataPlane.setAssoc_events (dp : DataPlane) (n : Nat) (x : Option Assoc) : (dp.setAssoc n x).events = dp.events := rfl
@[simp] theorem DataPlane.setAssoc_combine (dp : DataPlane) (n : Nat) (x : Option Assoc) : (dp.setAssoc n x).combine = dp.combine := rfl
@[simp] theorem DataPlane.setAssoc_served (dp : DataPlane) (n : Nat) (x : Option Assoc) : (dp.setAssoc n x).served = dp.served := rfl
@[simp] theorem DataPlane.setAssoc_collector (dp : DataPlane) (n : Nat) (x : Option Assoc) : (dp.setAssoc n x).collector = dp.collector := rfl
@[simp] theorem DataPlane.setAssoc_parts (dp : DataPlane) (n : Nat) (x : Option Assoc) : (dp.setAssoc n x).parts = dp.parts := rfl
@[simp] theorem DataPlane.setAssoc_pools (dp : DataPlane) (n : Nat) (x : Option Assoc) : (dp.setAssoc n x).pools = dp.pools := rfl
@[simp] theorem DataPlane.setAssoc_meter (dp : DataPlane) (n : Nat) (x : Option Assoc) : (dp.setAssoc n x).meter = dp.meter := rfl
@[simp] theorem DataPlane.setAssoc_services (dp : DataPlane) (n : Nat) (x : Option Assoc) : (dp.setAssoc n x).services = dp.services := rfl
@[simp] theorem DataPlane.setAssoc_coll (dp : DataPlane) (n : Nat) (x : Option Assoc) : (dp.setAssoc n x).coll = dp.coll := rfl
@[simp] theorem DataPlane.setAssoc_tagNext (dp : DataPlane) (n : Nat) (x : Option Assoc) : (dp.setAssoc n x).tagNext = dp.tagNext := rfl
@[simp] theorem DataPlane.setAssoc_remoteOut (dp : DataPlane) (n : Nat) (x : Option Assoc) : (dp.setAssoc n x).remoteOut = dp.remoteOut := rfl
@[simp] theorem DataPlane.setAssoc_remoteIn (dp : DataPlane) (n : Nat) (x : Option Assoc) : (dp.setAssoc n x).remoteIn = dp.remoteIn := rfl
@[simp] theorem DataPlane.setAssoc_fabOut (dp : DataPlane) (n : Nat) (x : Option Assoc) : (dp.setAssoc n x).fabOut = dp.fabOut := rfl
@[simp] theorem DataPlane.setAssoc_irqs (dp : DataPlane) (n : Nat) (x : Option Assoc) : (dp.setAssoc n x).irqs = dp.irqs := rfl
@[simp] theorem DataPlane.setAssoc_regs (dp : DataPlane) (n : Nat) (x : Option Assoc) : (dp.setAssoc n x).regs = dp.regs := rfl
@[simp] theorem DataPlane.setAssoc_telem (dp : DataPlane) (n : Nat) (x : Option Assoc) : (dp.setAssoc n x).telem = dp.telem := rfl
@[simp] theorem DataPlane.setAssoc_latch (dp : DataPlane) (n : Nat) (x : Option Assoc) : (dp.setAssoc n x).latch = dp.latch := rfl
@[simp] theorem DataPlane.setAssoc_vfEnable (dp : DataPlane) (n : Nat) (x : Option Assoc) : (dp.setAssoc n x).vfEnable = dp.vfEnable := rfl
@[simp] theorem DataPlane.setAssoc_numVfs (dp : DataPlane) (n : Nat) (x : Option Assoc) : (dp.setAssoc n x).numVfs = dp.numVfs := rfl
@[simp] theorem DataPlane.setAssoc_pcieDown (dp : DataPlane) (n : Nat) (x : Option Assoc) : (dp.setAssoc n x).pcieDown = dp.pcieDown := rfl
@[simp] theorem DataPlane.setAssoc_aer (dp : DataPlane) (n : Nat) (x : Option Assoc) : (dp.setAssoc n x).aer = dp.aer := rfl
@[simp] theorem DataPlane.setAssoc_narrow (dp : DataPlane) (n : Nat) (x : Option Assoc) : (dp.setAssoc n x).narrow = dp.narrow := rfl
@[simp] theorem DataPlane.setAssoc_scrub (dp : DataPlane) (n : Nat) (x : Option Assoc) : (dp.setAssoc n x).scrub = dp.scrub := rfl
@[simp] theorem DataPlane.setAssoc_collected (dp : DataPlane) (n : Nat) (x : Option Assoc) : (dp.setAssoc n x).collected = dp.collected := rfl
@[simp] theorem DataPlane.setAssoc_hubQueue (dp : DataPlane) (n : Nat) (x : Option Assoc) : (dp.setAssoc n x).hubQueue = dp.hubQueue := rfl
@[simp] theorem DataPlane.setAssoc_cpl (dp : DataPlane) (n : Nat) (x : Option Assoc) : (dp.setAssoc n x).cpl = dp.cpl := rfl
@[simp] theorem DataPlane.setAssoc_fatal (dp : DataPlane) (n : Nat) (x : Option Assoc) : (dp.setAssoc n x).fatal = dp.fatal := rfl
@[simp] theorem DataPlane.setAssoc_free (dp : DataPlane) (n : Nat) (x : Option Assoc) : (dp.setAssoc n x).free = dp.free := rfl
@[simp] theorem DataPlane.setService_mem (dp : DataPlane) (p : Nat) (x : Option Service) : (dp.setService p x).mem = dp.mem := rfl
@[simp] theorem DataPlane.setService_tiles (dp : DataPlane) (p : Nat) (x : Option Service) : (dp.setService p x).tiles = dp.tiles := rfl
@[simp] theorem DataPlane.setService_hubCores (dp : DataPlane) (p : Nat) (x : Option Service) : (dp.setService p x).hubCores = dp.hubCores := rfl
@[simp] theorem DataPlane.setService_widths (dp : DataPlane) (p : Nat) (x : Option Service) : (dp.setService p x).widths = dp.widths := rfl
@[simp] theorem DataPlane.setService_queues (dp : DataPlane) (p : Nat) (x : Option Service) : (dp.setService p x).queues = dp.queues := rfl
@[simp] theorem DataPlane.setService_launches (dp : DataPlane) (p : Nat) (x : Option Service) : (dp.setService p x).launches = dp.launches := rfl
@[simp] theorem DataPlane.setService_events (dp : DataPlane) (p : Nat) (x : Option Service) : (dp.setService p x).events = dp.events := rfl
@[simp] theorem DataPlane.setService_combine (dp : DataPlane) (p : Nat) (x : Option Service) : (dp.setService p x).combine = dp.combine := rfl
@[simp] theorem DataPlane.setService_served (dp : DataPlane) (p : Nat) (x : Option Service) : (dp.setService p x).served = dp.served := rfl
@[simp] theorem DataPlane.setService_collector (dp : DataPlane) (p : Nat) (x : Option Service) : (dp.setService p x).collector = dp.collector := rfl
@[simp] theorem DataPlane.setService_parts (dp : DataPlane) (p : Nat) (x : Option Service) : (dp.setService p x).parts = dp.parts := rfl
@[simp] theorem DataPlane.setService_pools (dp : DataPlane) (p : Nat) (x : Option Service) : (dp.setService p x).pools = dp.pools := rfl
@[simp] theorem DataPlane.setService_meter (dp : DataPlane) (p : Nat) (x : Option Service) : (dp.setService p x).meter = dp.meter := rfl
@[simp] theorem DataPlane.setService_net (dp : DataPlane) (p : Nat) (x : Option Service) : (dp.setService p x).net = dp.net := rfl
@[simp] theorem DataPlane.setService_services (dp : DataPlane) (p : Nat) (x : Option Service) : (dp.setService p x).services = SMap.set none dp.services p x := rfl
@[simp] theorem DataPlane.setService_coll (dp : DataPlane) (p : Nat) (x : Option Service) : (dp.setService p x).coll = dp.coll := rfl
@[simp] theorem DataPlane.setService_tagNext (dp : DataPlane) (p : Nat) (x : Option Service) : (dp.setService p x).tagNext = dp.tagNext := rfl
@[simp] theorem DataPlane.setService_remoteOut (dp : DataPlane) (p : Nat) (x : Option Service) : (dp.setService p x).remoteOut = dp.remoteOut := rfl
@[simp] theorem DataPlane.setService_remoteIn (dp : DataPlane) (p : Nat) (x : Option Service) : (dp.setService p x).remoteIn = dp.remoteIn := rfl
@[simp] theorem DataPlane.setService_fabOut (dp : DataPlane) (p : Nat) (x : Option Service) : (dp.setService p x).fabOut = dp.fabOut := rfl
@[simp] theorem DataPlane.setService_irqs (dp : DataPlane) (p : Nat) (x : Option Service) : (dp.setService p x).irqs = dp.irqs := rfl
@[simp] theorem DataPlane.setService_regs (dp : DataPlane) (p : Nat) (x : Option Service) : (dp.setService p x).regs = dp.regs := rfl
@[simp] theorem DataPlane.setService_telem (dp : DataPlane) (p : Nat) (x : Option Service) : (dp.setService p x).telem = dp.telem := rfl
@[simp] theorem DataPlane.setService_latch (dp : DataPlane) (p : Nat) (x : Option Service) : (dp.setService p x).latch = dp.latch := rfl
@[simp] theorem DataPlane.setService_vfEnable (dp : DataPlane) (p : Nat) (x : Option Service) : (dp.setService p x).vfEnable = dp.vfEnable := rfl
@[simp] theorem DataPlane.setService_numVfs (dp : DataPlane) (p : Nat) (x : Option Service) : (dp.setService p x).numVfs = dp.numVfs := rfl
@[simp] theorem DataPlane.setService_pcieDown (dp : DataPlane) (p : Nat) (x : Option Service) : (dp.setService p x).pcieDown = dp.pcieDown := rfl
@[simp] theorem DataPlane.setService_aer (dp : DataPlane) (p : Nat) (x : Option Service) : (dp.setService p x).aer = dp.aer := rfl
@[simp] theorem DataPlane.setService_narrow (dp : DataPlane) (p : Nat) (x : Option Service) : (dp.setService p x).narrow = dp.narrow := rfl
@[simp] theorem DataPlane.setService_scrub (dp : DataPlane) (p : Nat) (x : Option Service) : (dp.setService p x).scrub = dp.scrub := rfl
@[simp] theorem DataPlane.setService_collected (dp : DataPlane) (p : Nat) (x : Option Service) : (dp.setService p x).collected = dp.collected := rfl
@[simp] theorem DataPlane.setService_hubQueue (dp : DataPlane) (p : Nat) (x : Option Service) : (dp.setService p x).hubQueue = dp.hubQueue := rfl
@[simp] theorem DataPlane.setService_cpl (dp : DataPlane) (p : Nat) (x : Option Service) : (dp.setService p x).cpl = dp.cpl := rfl
@[simp] theorem DataPlane.setService_fatal (dp : DataPlane) (p : Nat) (x : Option Service) : (dp.setService p x).fatal = dp.fatal := rfl
@[simp] theorem DataPlane.setService_free (dp : DataPlane) (p : Nat) (x : Option Service) : (dp.setService p x).free = dp.free := rfl
@[simp] theorem DataPlane.setGroup_mem (dp : DataPlane) (n : Nat) (g : Option Group) : (dp.setGroup n g).mem = dp.mem := rfl
@[simp] theorem DataPlane.setGroup_tiles (dp : DataPlane) (n : Nat) (g : Option Group) : (dp.setGroup n g).tiles = dp.tiles := rfl
@[simp] theorem DataPlane.setGroup_hubCores (dp : DataPlane) (n : Nat) (g : Option Group) : (dp.setGroup n g).hubCores = dp.hubCores := rfl
@[simp] theorem DataPlane.setGroup_widths (dp : DataPlane) (n : Nat) (g : Option Group) : (dp.setGroup n g).widths = dp.widths := rfl
@[simp] theorem DataPlane.setGroup_queues (dp : DataPlane) (n : Nat) (g : Option Group) : (dp.setGroup n g).queues = dp.queues := rfl
@[simp] theorem DataPlane.setGroup_launches (dp : DataPlane) (n : Nat) (g : Option Group) : (dp.setGroup n g).launches = dp.launches := rfl
@[simp] theorem DataPlane.setGroup_events (dp : DataPlane) (n : Nat) (g : Option Group) : (dp.setGroup n g).events = dp.events := rfl
@[simp] theorem DataPlane.setGroup_combine (dp : DataPlane) (n : Nat) (g : Option Group) : (dp.setGroup n g).combine = dp.combine := rfl
@[simp] theorem DataPlane.setGroup_served (dp : DataPlane) (n : Nat) (g : Option Group) : (dp.setGroup n g).served = dp.served := rfl
@[simp] theorem DataPlane.setGroup_collector (dp : DataPlane) (n : Nat) (g : Option Group) : (dp.setGroup n g).collector = dp.collector := rfl
@[simp] theorem DataPlane.setGroup_parts (dp : DataPlane) (n : Nat) (g : Option Group) : (dp.setGroup n g).parts = dp.parts := rfl
@[simp] theorem DataPlane.setGroup_pools (dp : DataPlane) (n : Nat) (g : Option Group) : (dp.setGroup n g).pools = dp.pools := rfl
@[simp] theorem DataPlane.setGroup_meter (dp : DataPlane) (n : Nat) (g : Option Group) : (dp.setGroup n g).meter = dp.meter := rfl
@[simp] theorem DataPlane.setGroup_net (dp : DataPlane) (n : Nat) (g : Option Group) : (dp.setGroup n g).net = dp.net := rfl
@[simp] theorem DataPlane.setGroup_services (dp : DataPlane) (n : Nat) (g : Option Group) : (dp.setGroup n g).services = dp.services := rfl
@[simp] theorem DataPlane.setGroup_tagNext (dp : DataPlane) (n : Nat) (g : Option Group) : (dp.setGroup n g).tagNext = dp.tagNext := rfl
@[simp] theorem DataPlane.setGroup_remoteOut (dp : DataPlane) (n : Nat) (g : Option Group) : (dp.setGroup n g).remoteOut = dp.remoteOut := rfl
@[simp] theorem DataPlane.setGroup_remoteIn (dp : DataPlane) (n : Nat) (g : Option Group) : (dp.setGroup n g).remoteIn = dp.remoteIn := rfl
@[simp] theorem DataPlane.setGroup_fabOut (dp : DataPlane) (n : Nat) (g : Option Group) : (dp.setGroup n g).fabOut = dp.fabOut := rfl
@[simp] theorem DataPlane.setGroup_irqs (dp : DataPlane) (n : Nat) (g : Option Group) : (dp.setGroup n g).irqs = dp.irqs := rfl
@[simp] theorem DataPlane.setGroup_regs (dp : DataPlane) (n : Nat) (g : Option Group) : (dp.setGroup n g).regs = dp.regs := rfl
@[simp] theorem DataPlane.setGroup_telem (dp : DataPlane) (n : Nat) (g : Option Group) : (dp.setGroup n g).telem = dp.telem := rfl
@[simp] theorem DataPlane.setGroup_latch (dp : DataPlane) (n : Nat) (g : Option Group) : (dp.setGroup n g).latch = dp.latch := rfl
@[simp] theorem DataPlane.setGroup_vfEnable (dp : DataPlane) (n : Nat) (g : Option Group) : (dp.setGroup n g).vfEnable = dp.vfEnable := rfl
@[simp] theorem DataPlane.setGroup_numVfs (dp : DataPlane) (n : Nat) (g : Option Group) : (dp.setGroup n g).numVfs = dp.numVfs := rfl
@[simp] theorem DataPlane.setGroup_pcieDown (dp : DataPlane) (n : Nat) (g : Option Group) : (dp.setGroup n g).pcieDown = dp.pcieDown := rfl
@[simp] theorem DataPlane.setGroup_aer (dp : DataPlane) (n : Nat) (g : Option Group) : (dp.setGroup n g).aer = dp.aer := rfl
@[simp] theorem DataPlane.setGroup_narrow (dp : DataPlane) (n : Nat) (g : Option Group) : (dp.setGroup n g).narrow = dp.narrow := rfl
@[simp] theorem DataPlane.setGroup_scrub (dp : DataPlane) (n : Nat) (g : Option Group) : (dp.setGroup n g).scrub = dp.scrub := rfl
@[simp] theorem DataPlane.setGroup_collected (dp : DataPlane) (n : Nat) (g : Option Group) : (dp.setGroup n g).collected = dp.collected := rfl
@[simp] theorem DataPlane.setGroup_hubQueue (dp : DataPlane) (n : Nat) (g : Option Group) : (dp.setGroup n g).hubQueue = dp.hubQueue := rfl
@[simp] theorem DataPlane.setGroup_cpl (dp : DataPlane) (n : Nat) (g : Option Group) : (dp.setGroup n g).cpl = dp.cpl := rfl
@[simp] theorem DataPlane.setGroup_fatal (dp : DataPlane) (n : Nat) (g : Option Group) : (dp.setGroup n g).fatal = dp.fatal := rfl
@[simp] theorem DataPlane.setGroup_free (dp : DataPlane) (n : Nat) (g : Option Group) : (dp.setGroup n g).free = dp.free := rfl
@[simp] theorem DataPlane.setRegWord_mem (dp : DataPlane) (fn off v : Nat) : (dp.setRegWord fn off v).mem = dp.mem := rfl
@[simp] theorem DataPlane.setRegWord_tiles (dp : DataPlane) (fn off v : Nat) : (dp.setRegWord fn off v).tiles = dp.tiles := rfl
@[simp] theorem DataPlane.setRegWord_hubCores (dp : DataPlane) (fn off v : Nat) : (dp.setRegWord fn off v).hubCores = dp.hubCores := rfl
@[simp] theorem DataPlane.setRegWord_widths (dp : DataPlane) (fn off v : Nat) : (dp.setRegWord fn off v).widths = dp.widths := rfl
@[simp] theorem DataPlane.setRegWord_queues (dp : DataPlane) (fn off v : Nat) : (dp.setRegWord fn off v).queues = dp.queues := rfl
@[simp] theorem DataPlane.setRegWord_launches (dp : DataPlane) (fn off v : Nat) : (dp.setRegWord fn off v).launches = dp.launches := rfl
@[simp] theorem DataPlane.setRegWord_events (dp : DataPlane) (fn off v : Nat) : (dp.setRegWord fn off v).events = dp.events := rfl
@[simp] theorem DataPlane.setRegWord_combine (dp : DataPlane) (fn off v : Nat) : (dp.setRegWord fn off v).combine = dp.combine := rfl
@[simp] theorem DataPlane.setRegWord_served (dp : DataPlane) (fn off v : Nat) : (dp.setRegWord fn off v).served = dp.served := rfl
@[simp] theorem DataPlane.setRegWord_collector (dp : DataPlane) (fn off v : Nat) : (dp.setRegWord fn off v).collector = dp.collector := rfl
@[simp] theorem DataPlane.setRegWord_parts (dp : DataPlane) (fn off v : Nat) : (dp.setRegWord fn off v).parts = dp.parts := rfl
@[simp] theorem DataPlane.setRegWord_pools (dp : DataPlane) (fn off v : Nat) : (dp.setRegWord fn off v).pools = dp.pools := rfl
@[simp] theorem DataPlane.setRegWord_meter (dp : DataPlane) (fn off v : Nat) : (dp.setRegWord fn off v).meter = dp.meter := rfl
@[simp] theorem DataPlane.setRegWord_net (dp : DataPlane) (fn off v : Nat) : (dp.setRegWord fn off v).net = dp.net := rfl
@[simp] theorem DataPlane.setRegWord_services (dp : DataPlane) (fn off v : Nat) : (dp.setRegWord fn off v).services = dp.services := rfl
@[simp] theorem DataPlane.setRegWord_coll (dp : DataPlane) (fn off v : Nat) : (dp.setRegWord fn off v).coll = dp.coll := rfl
@[simp] theorem DataPlane.setRegWord_tagNext (dp : DataPlane) (fn off v : Nat) : (dp.setRegWord fn off v).tagNext = dp.tagNext := rfl
@[simp] theorem DataPlane.setRegWord_remoteOut (dp : DataPlane) (fn off v : Nat) : (dp.setRegWord fn off v).remoteOut = dp.remoteOut := rfl
@[simp] theorem DataPlane.setRegWord_remoteIn (dp : DataPlane) (fn off v : Nat) : (dp.setRegWord fn off v).remoteIn = dp.remoteIn := rfl
@[simp] theorem DataPlane.setRegWord_fabOut (dp : DataPlane) (fn off v : Nat) : (dp.setRegWord fn off v).fabOut = dp.fabOut := rfl
@[simp] theorem DataPlane.setRegWord_irqs (dp : DataPlane) (fn off v : Nat) : (dp.setRegWord fn off v).irqs = dp.irqs := rfl
@[simp] theorem DataPlane.setRegWord_regs (dp : DataPlane) (fn off v : Nat) : (dp.setRegWord fn off v).regs = SMap.set 0 dp.regs (regKey fn off) (BitVec.ofNat 32 v) := rfl
@[simp] theorem DataPlane.setRegWord_telem (dp : DataPlane) (fn off v : Nat) : (dp.setRegWord fn off v).telem = dp.telem := rfl
@[simp] theorem DataPlane.setRegWord_latch (dp : DataPlane) (fn off v : Nat) : (dp.setRegWord fn off v).latch = dp.latch := rfl
@[simp] theorem DataPlane.setRegWord_vfEnable (dp : DataPlane) (fn off v : Nat) : (dp.setRegWord fn off v).vfEnable = dp.vfEnable := rfl
@[simp] theorem DataPlane.setRegWord_numVfs (dp : DataPlane) (fn off v : Nat) : (dp.setRegWord fn off v).numVfs = dp.numVfs := rfl
@[simp] theorem DataPlane.setRegWord_pcieDown (dp : DataPlane) (fn off v : Nat) : (dp.setRegWord fn off v).pcieDown = dp.pcieDown := rfl
@[simp] theorem DataPlane.setRegWord_aer (dp : DataPlane) (fn off v : Nat) : (dp.setRegWord fn off v).aer = dp.aer := rfl
@[simp] theorem DataPlane.setRegWord_narrow (dp : DataPlane) (fn off v : Nat) : (dp.setRegWord fn off v).narrow = dp.narrow := rfl
@[simp] theorem DataPlane.setRegWord_scrub (dp : DataPlane) (fn off v : Nat) : (dp.setRegWord fn off v).scrub = dp.scrub := rfl
@[simp] theorem DataPlane.setRegWord_collected (dp : DataPlane) (fn off v : Nat) : (dp.setRegWord fn off v).collected = dp.collected := rfl
@[simp] theorem DataPlane.setRegWord_hubQueue (dp : DataPlane) (fn off v : Nat) : (dp.setRegWord fn off v).hubQueue = dp.hubQueue := rfl
@[simp] theorem DataPlane.setRegWord_cpl (dp : DataPlane) (fn off v : Nat) : (dp.setRegWord fn off v).cpl = dp.cpl := rfl
@[simp] theorem DataPlane.setRegWord_fatal (dp : DataPlane) (fn off v : Nat) : (dp.setRegWord fn off v).fatal = dp.fatal := rfl
@[simp] theorem DataPlane.setRegWord_free (dp : DataPlane) (fn off v : Nat) : (dp.setRegWord fn off v).free = dp.free := rfl
@[simp] theorem DataPlane.count_mem (dp : DataPlane) (off n : Nat) : (dp.count off n).mem = dp.mem := rfl
@[simp] theorem DataPlane.count_tiles (dp : DataPlane) (off n : Nat) : (dp.count off n).tiles = dp.tiles := rfl
@[simp] theorem DataPlane.count_hubCores (dp : DataPlane) (off n : Nat) : (dp.count off n).hubCores = dp.hubCores := rfl
@[simp] theorem DataPlane.count_widths (dp : DataPlane) (off n : Nat) : (dp.count off n).widths = dp.widths := rfl
@[simp] theorem DataPlane.count_queues (dp : DataPlane) (off n : Nat) : (dp.count off n).queues = dp.queues := rfl
@[simp] theorem DataPlane.count_launches (dp : DataPlane) (off n : Nat) : (dp.count off n).launches = dp.launches := rfl
@[simp] theorem DataPlane.count_events (dp : DataPlane) (off n : Nat) : (dp.count off n).events = dp.events := rfl
@[simp] theorem DataPlane.count_combine (dp : DataPlane) (off n : Nat) : (dp.count off n).combine = dp.combine := rfl
@[simp] theorem DataPlane.count_served (dp : DataPlane) (off n : Nat) : (dp.count off n).served = dp.served := rfl
@[simp] theorem DataPlane.count_collector (dp : DataPlane) (off n : Nat) : (dp.count off n).collector = dp.collector := rfl
@[simp] theorem DataPlane.count_parts (dp : DataPlane) (off n : Nat) : (dp.count off n).parts = dp.parts := rfl
@[simp] theorem DataPlane.count_pools (dp : DataPlane) (off n : Nat) : (dp.count off n).pools = dp.pools := rfl
@[simp] theorem DataPlane.count_meter (dp : DataPlane) (off n : Nat) : (dp.count off n).meter = dp.meter := rfl
@[simp] theorem DataPlane.count_net (dp : DataPlane) (off n : Nat) : (dp.count off n).net = dp.net := rfl
@[simp] theorem DataPlane.count_services (dp : DataPlane) (off n : Nat) : (dp.count off n).services = dp.services := rfl
@[simp] theorem DataPlane.count_coll (dp : DataPlane) (off n : Nat) : (dp.count off n).coll = dp.coll := rfl
@[simp] theorem DataPlane.count_tagNext (dp : DataPlane) (off n : Nat) : (dp.count off n).tagNext = dp.tagNext := rfl
@[simp] theorem DataPlane.count_remoteOut (dp : DataPlane) (off n : Nat) : (dp.count off n).remoteOut = dp.remoteOut := rfl
@[simp] theorem DataPlane.count_remoteIn (dp : DataPlane) (off n : Nat) : (dp.count off n).remoteIn = dp.remoteIn := rfl
@[simp] theorem DataPlane.count_fabOut (dp : DataPlane) (off n : Nat) : (dp.count off n).fabOut = dp.fabOut := rfl
@[simp] theorem DataPlane.count_irqs (dp : DataPlane) (off n : Nat) : (dp.count off n).irqs = dp.irqs := rfl
@[simp] theorem DataPlane.count_regs (dp : DataPlane) (off n : Nat) : (dp.count off n).regs = dp.regs := rfl
@[simp] theorem DataPlane.count_latch (dp : DataPlane) (off n : Nat) : (dp.count off n).latch = dp.latch := rfl
@[simp] theorem DataPlane.count_vfEnable (dp : DataPlane) (off n : Nat) : (dp.count off n).vfEnable = dp.vfEnable := rfl
@[simp] theorem DataPlane.count_numVfs (dp : DataPlane) (off n : Nat) : (dp.count off n).numVfs = dp.numVfs := rfl
@[simp] theorem DataPlane.count_pcieDown (dp : DataPlane) (off n : Nat) : (dp.count off n).pcieDown = dp.pcieDown := rfl
@[simp] theorem DataPlane.count_aer (dp : DataPlane) (off n : Nat) : (dp.count off n).aer = dp.aer := rfl
@[simp] theorem DataPlane.count_narrow (dp : DataPlane) (off n : Nat) : (dp.count off n).narrow = dp.narrow := rfl
@[simp] theorem DataPlane.count_scrub (dp : DataPlane) (off n : Nat) : (dp.count off n).scrub = dp.scrub := rfl
@[simp] theorem DataPlane.count_collected (dp : DataPlane) (off n : Nat) : (dp.count off n).collected = dp.collected := rfl
@[simp] theorem DataPlane.count_hubQueue (dp : DataPlane) (off n : Nat) : (dp.count off n).hubQueue = dp.hubQueue := rfl
@[simp] theorem DataPlane.count_cpl (dp : DataPlane) (off n : Nat) : (dp.count off n).cpl = dp.cpl := rfl
@[simp] theorem DataPlane.count_fatal (dp : DataPlane) (off n : Nat) : (dp.count off n).fatal = dp.fatal := rfl
@[simp] theorem DataPlane.count_free (dp : DataPlane) (off n : Nat) : (dp.count off n).free = dp.free := rfl
@[simp] theorem DataPlane.send_mem (dp : DataPlane) (k : String) (d : Nat) (a : List Nat) (b : List Byte) (vc : Nat) (ps : Bool) : (dp.send k d a b vc ps).mem = dp.mem := rfl
@[simp] theorem DataPlane.send_tiles (dp : DataPlane) (k : String) (d : Nat) (a : List Nat) (b : List Byte) (vc : Nat) (ps : Bool) : (dp.send k d a b vc ps).tiles = dp.tiles := rfl
@[simp] theorem DataPlane.send_hubCores (dp : DataPlane) (k : String) (d : Nat) (a : List Nat) (b : List Byte) (vc : Nat) (ps : Bool) : (dp.send k d a b vc ps).hubCores = dp.hubCores := rfl
@[simp] theorem DataPlane.send_widths (dp : DataPlane) (k : String) (d : Nat) (a : List Nat) (b : List Byte) (vc : Nat) (ps : Bool) : (dp.send k d a b vc ps).widths = dp.widths := rfl
@[simp] theorem DataPlane.send_queues (dp : DataPlane) (k : String) (d : Nat) (a : List Nat) (b : List Byte) (vc : Nat) (ps : Bool) : (dp.send k d a b vc ps).queues = dp.queues := rfl
@[simp] theorem DataPlane.send_launches (dp : DataPlane) (k : String) (d : Nat) (a : List Nat) (b : List Byte) (vc : Nat) (ps : Bool) : (dp.send k d a b vc ps).launches = dp.launches := rfl
@[simp] theorem DataPlane.send_events (dp : DataPlane) (k : String) (d : Nat) (a : List Nat) (b : List Byte) (vc : Nat) (ps : Bool) : (dp.send k d a b vc ps).events = dp.events := rfl
@[simp] theorem DataPlane.send_combine (dp : DataPlane) (k : String) (d : Nat) (a : List Nat) (b : List Byte) (vc : Nat) (ps : Bool) : (dp.send k d a b vc ps).combine = dp.combine := rfl
@[simp] theorem DataPlane.send_served (dp : DataPlane) (k : String) (d : Nat) (a : List Nat) (b : List Byte) (vc : Nat) (ps : Bool) : (dp.send k d a b vc ps).served = dp.served := rfl
@[simp] theorem DataPlane.send_collector (dp : DataPlane) (k : String) (d : Nat) (a : List Nat) (b : List Byte) (vc : Nat) (ps : Bool) : (dp.send k d a b vc ps).collector = dp.collector := rfl
@[simp] theorem DataPlane.send_parts (dp : DataPlane) (k : String) (d : Nat) (a : List Nat) (b : List Byte) (vc : Nat) (ps : Bool) : (dp.send k d a b vc ps).parts = dp.parts := rfl
@[simp] theorem DataPlane.send_pools (dp : DataPlane) (k : String) (d : Nat) (a : List Nat) (b : List Byte) (vc : Nat) (ps : Bool) : (dp.send k d a b vc ps).pools = dp.pools := rfl
@[simp] theorem DataPlane.send_meter (dp : DataPlane) (k : String) (d : Nat) (a : List Nat) (b : List Byte) (vc : Nat) (ps : Bool) : (dp.send k d a b vc ps).meter = dp.meter := rfl
@[simp] theorem DataPlane.send_net (dp : DataPlane) (k : String) (d : Nat) (a : List Nat) (b : List Byte) (vc : Nat) (ps : Bool) : (dp.send k d a b vc ps).net = dp.net := rfl
@[simp] theorem DataPlane.send_services (dp : DataPlane) (k : String) (d : Nat) (a : List Nat) (b : List Byte) (vc : Nat) (ps : Bool) : (dp.send k d a b vc ps).services = dp.services := rfl
@[simp] theorem DataPlane.send_coll (dp : DataPlane) (k : String) (d : Nat) (a : List Nat) (b : List Byte) (vc : Nat) (ps : Bool) : (dp.send k d a b vc ps).coll = dp.coll := rfl
@[simp] theorem DataPlane.send_tagNext (dp : DataPlane) (k : String) (d : Nat) (a : List Nat) (b : List Byte) (vc : Nat) (ps : Bool) : (dp.send k d a b vc ps).tagNext = dp.tagNext := rfl
@[simp] theorem DataPlane.send_remoteOut (dp : DataPlane) (k : String) (d : Nat) (a : List Nat) (b : List Byte) (vc : Nat) (ps : Bool) : (dp.send k d a b vc ps).remoteOut = dp.remoteOut := rfl
@[simp] theorem DataPlane.send_remoteIn (dp : DataPlane) (k : String) (d : Nat) (a : List Nat) (b : List Byte) (vc : Nat) (ps : Bool) : (dp.send k d a b vc ps).remoteIn = dp.remoteIn := rfl
@[simp] theorem DataPlane.send_fabOut (dp : DataPlane) (k : String) (d : Nat) (a : List Nat) (b : List Byte) (vc : Nat) (ps : Bool) : (dp.send k d a b vc ps).fabOut = dp.fabOut ++ [⟨k, d, a, b, vc, ps⟩] := rfl
@[simp] theorem DataPlane.send_irqs (dp : DataPlane) (k : String) (d : Nat) (a : List Nat) (b : List Byte) (vc : Nat) (ps : Bool) : (dp.send k d a b vc ps).irqs = dp.irqs := rfl
@[simp] theorem DataPlane.send_regs (dp : DataPlane) (k : String) (d : Nat) (a : List Nat) (b : List Byte) (vc : Nat) (ps : Bool) : (dp.send k d a b vc ps).regs = dp.regs := rfl
@[simp] theorem DataPlane.send_telem (dp : DataPlane) (k : String) (d : Nat) (a : List Nat) (b : List Byte) (vc : Nat) (ps : Bool) : (dp.send k d a b vc ps).telem = dp.telem := rfl
@[simp] theorem DataPlane.send_latch (dp : DataPlane) (k : String) (d : Nat) (a : List Nat) (b : List Byte) (vc : Nat) (ps : Bool) : (dp.send k d a b vc ps).latch = dp.latch := rfl
@[simp] theorem DataPlane.send_vfEnable (dp : DataPlane) (k : String) (d : Nat) (a : List Nat) (b : List Byte) (vc : Nat) (ps : Bool) : (dp.send k d a b vc ps).vfEnable = dp.vfEnable := rfl
@[simp] theorem DataPlane.send_numVfs (dp : DataPlane) (k : String) (d : Nat) (a : List Nat) (b : List Byte) (vc : Nat) (ps : Bool) : (dp.send k d a b vc ps).numVfs = dp.numVfs := rfl
@[simp] theorem DataPlane.send_pcieDown (dp : DataPlane) (k : String) (d : Nat) (a : List Nat) (b : List Byte) (vc : Nat) (ps : Bool) : (dp.send k d a b vc ps).pcieDown = dp.pcieDown := rfl
@[simp] theorem DataPlane.send_aer (dp : DataPlane) (k : String) (d : Nat) (a : List Nat) (b : List Byte) (vc : Nat) (ps : Bool) : (dp.send k d a b vc ps).aer = dp.aer := rfl
@[simp] theorem DataPlane.send_narrow (dp : DataPlane) (k : String) (d : Nat) (a : List Nat) (b : List Byte) (vc : Nat) (ps : Bool) : (dp.send k d a b vc ps).narrow = dp.narrow := rfl
@[simp] theorem DataPlane.send_scrub (dp : DataPlane) (k : String) (d : Nat) (a : List Nat) (b : List Byte) (vc : Nat) (ps : Bool) : (dp.send k d a b vc ps).scrub = dp.scrub := rfl
@[simp] theorem DataPlane.send_collected (dp : DataPlane) (k : String) (d : Nat) (a : List Nat) (b : List Byte) (vc : Nat) (ps : Bool) : (dp.send k d a b vc ps).collected = dp.collected := rfl
@[simp] theorem DataPlane.send_hubQueue (dp : DataPlane) (k : String) (d : Nat) (a : List Nat) (b : List Byte) (vc : Nat) (ps : Bool) : (dp.send k d a b vc ps).hubQueue = dp.hubQueue := rfl
@[simp] theorem DataPlane.send_cpl (dp : DataPlane) (k : String) (d : Nat) (a : List Nat) (b : List Byte) (vc : Nat) (ps : Bool) : (dp.send k d a b vc ps).cpl = dp.cpl := rfl
@[simp] theorem DataPlane.send_fatal (dp : DataPlane) (k : String) (d : Nat) (a : List Nat) (b : List Byte) (vc : Nat) (ps : Bool) : (dp.send k d a b vc ps).fatal = dp.fatal := rfl
@[simp] theorem DataPlane.send_free (dp : DataPlane) (k : String) (d : Nat) (a : List Nat) (b : List Byte) (vc : Nat) (ps : Bool) : (dp.send k d a b vc ps).free = dp.free := rfl

/-! ### A vector raised: its message, or its pending bit while it is masked -/

@[simp] theorem DataPlane.raise_mem (dp : DataPlane) (fn vec : Nat) : (dp.raise fn vec).mem = dp.mem := by unfold DataPlane.raise; split <;> rfl
@[simp] theorem DataPlane.raise_tiles (dp : DataPlane) (fn vec : Nat) : (dp.raise fn vec).tiles = dp.tiles := by unfold DataPlane.raise; split <;> rfl
@[simp] theorem DataPlane.raise_hubCores (dp : DataPlane) (fn vec : Nat) : (dp.raise fn vec).hubCores = dp.hubCores := by unfold DataPlane.raise; split <;> rfl
@[simp] theorem DataPlane.raise_widths (dp : DataPlane) (fn vec : Nat) : (dp.raise fn vec).widths = dp.widths := by unfold DataPlane.raise; split <;> rfl
@[simp] theorem DataPlane.raise_queues (dp : DataPlane) (fn vec : Nat) : (dp.raise fn vec).queues = dp.queues := by unfold DataPlane.raise; split <;> rfl
@[simp] theorem DataPlane.raise_launches (dp : DataPlane) (fn vec : Nat) : (dp.raise fn vec).launches = dp.launches := by unfold DataPlane.raise; split <;> rfl
@[simp] theorem DataPlane.raise_events (dp : DataPlane) (fn vec : Nat) : (dp.raise fn vec).events = dp.events := by unfold DataPlane.raise; split <;> rfl
@[simp] theorem DataPlane.raise_combine (dp : DataPlane) (fn vec : Nat) : (dp.raise fn vec).combine = dp.combine := by unfold DataPlane.raise; split <;> rfl
@[simp] theorem DataPlane.raise_served (dp : DataPlane) (fn vec : Nat) : (dp.raise fn vec).served = dp.served := by unfold DataPlane.raise; split <;> rfl
@[simp] theorem DataPlane.raise_collector (dp : DataPlane) (fn vec : Nat) : (dp.raise fn vec).collector = dp.collector := by unfold DataPlane.raise; split <;> rfl
@[simp] theorem DataPlane.raise_parts (dp : DataPlane) (fn vec : Nat) : (dp.raise fn vec).parts = dp.parts := by unfold DataPlane.raise; split <;> rfl
@[simp] theorem DataPlane.raise_pools (dp : DataPlane) (fn vec : Nat) : (dp.raise fn vec).pools = dp.pools := by unfold DataPlane.raise; split <;> rfl
@[simp] theorem DataPlane.raise_meter (dp : DataPlane) (fn vec : Nat) : (dp.raise fn vec).meter = dp.meter := by unfold DataPlane.raise; split <;> rfl
@[simp] theorem DataPlane.raise_net (dp : DataPlane) (fn vec : Nat) : (dp.raise fn vec).net = dp.net := by unfold DataPlane.raise; split <;> rfl
@[simp] theorem DataPlane.raise_services (dp : DataPlane) (fn vec : Nat) : (dp.raise fn vec).services = dp.services := by unfold DataPlane.raise; split <;> rfl
@[simp] theorem DataPlane.raise_coll (dp : DataPlane) (fn vec : Nat) : (dp.raise fn vec).coll = dp.coll := by unfold DataPlane.raise; split <;> rfl
@[simp] theorem DataPlane.raise_tagNext (dp : DataPlane) (fn vec : Nat) : (dp.raise fn vec).tagNext = dp.tagNext := by unfold DataPlane.raise; split <;> rfl
@[simp] theorem DataPlane.raise_remoteOut (dp : DataPlane) (fn vec : Nat) : (dp.raise fn vec).remoteOut = dp.remoteOut := by unfold DataPlane.raise; split <;> rfl
@[simp] theorem DataPlane.raise_remoteIn (dp : DataPlane) (fn vec : Nat) : (dp.raise fn vec).remoteIn = dp.remoteIn := by unfold DataPlane.raise; split <;> rfl
@[simp] theorem DataPlane.raise_fabOut (dp : DataPlane) (fn vec : Nat) : (dp.raise fn vec).fabOut = dp.fabOut := by unfold DataPlane.raise; split <;> rfl
@[simp] theorem DataPlane.raise_telem (dp : DataPlane) (fn vec : Nat) : (dp.raise fn vec).telem = dp.telem := by unfold DataPlane.raise; split <;> rfl
@[simp] theorem DataPlane.raise_latch (dp : DataPlane) (fn vec : Nat) : (dp.raise fn vec).latch = dp.latch := by unfold DataPlane.raise; split <;> rfl
@[simp] theorem DataPlane.raise_vfEnable (dp : DataPlane) (fn vec : Nat) : (dp.raise fn vec).vfEnable = dp.vfEnable := by unfold DataPlane.raise; split <;> rfl
@[simp] theorem DataPlane.raise_numVfs (dp : DataPlane) (fn vec : Nat) : (dp.raise fn vec).numVfs = dp.numVfs := by unfold DataPlane.raise; split <;> rfl
@[simp] theorem DataPlane.raise_pcieDown (dp : DataPlane) (fn vec : Nat) : (dp.raise fn vec).pcieDown = dp.pcieDown := by unfold DataPlane.raise; split <;> rfl
@[simp] theorem DataPlane.raise_aer (dp : DataPlane) (fn vec : Nat) : (dp.raise fn vec).aer = dp.aer := by unfold DataPlane.raise; split <;> rfl
@[simp] theorem DataPlane.raise_narrow (dp : DataPlane) (fn vec : Nat) : (dp.raise fn vec).narrow = dp.narrow := by unfold DataPlane.raise; split <;> rfl
@[simp] theorem DataPlane.raise_scrub (dp : DataPlane) (fn vec : Nat) : (dp.raise fn vec).scrub = dp.scrub := by unfold DataPlane.raise; split <;> rfl
@[simp] theorem DataPlane.raise_collected (dp : DataPlane) (fn vec : Nat) : (dp.raise fn vec).collected = dp.collected := by unfold DataPlane.raise; split <;> rfl
@[simp] theorem DataPlane.raise_hubQueue (dp : DataPlane) (fn vec : Nat) : (dp.raise fn vec).hubQueue = dp.hubQueue := by unfold DataPlane.raise; split <;> rfl
@[simp] theorem DataPlane.raise_cpl (dp : DataPlane) (fn vec : Nat) : (dp.raise fn vec).cpl = dp.cpl := by unfold DataPlane.raise; split <;> rfl
@[simp] theorem DataPlane.raise_fatal (dp : DataPlane) (fn vec : Nat) : (dp.raise fn vec).fatal = dp.fatal := by unfold DataPlane.raise; split <;> rfl
@[simp] theorem DataPlane.raise_free (dp : DataPlane) (fn vec : Nat) : (dp.raise fn vec).free = dp.free := by unfold DataPlane.raise; split <;> rfl
@[simp] theorem DataPlane.addUsage_mem (dp : DataPlane) (p : Nat) (f : Usage → Usage) : (dp.addUsage p f).mem = dp.mem := rfl
@[simp] theorem DataPlane.addUsage_tiles (dp : DataPlane) (p : Nat) (f : Usage → Usage) : (dp.addUsage p f).tiles = dp.tiles := rfl
@[simp] theorem DataPlane.addUsage_hubCores (dp : DataPlane) (p : Nat) (f : Usage → Usage) : (dp.addUsage p f).hubCores = dp.hubCores := rfl
@[simp] theorem DataPlane.addUsage_widths (dp : DataPlane) (p : Nat) (f : Usage → Usage) : (dp.addUsage p f).widths = dp.widths := rfl
@[simp] theorem DataPlane.addUsage_queues (dp : DataPlane) (p : Nat) (f : Usage → Usage) : (dp.addUsage p f).queues = dp.queues := rfl
@[simp] theorem DataPlane.addUsage_launches (dp : DataPlane) (p : Nat) (f : Usage → Usage) : (dp.addUsage p f).launches = dp.launches := rfl
@[simp] theorem DataPlane.addUsage_events (dp : DataPlane) (p : Nat) (f : Usage → Usage) : (dp.addUsage p f).events = dp.events := rfl
@[simp] theorem DataPlane.addUsage_combine (dp : DataPlane) (p : Nat) (f : Usage → Usage) : (dp.addUsage p f).combine = dp.combine := rfl
@[simp] theorem DataPlane.addUsage_served (dp : DataPlane) (p : Nat) (f : Usage → Usage) : (dp.addUsage p f).served = dp.served := rfl
@[simp] theorem DataPlane.addUsage_collector (dp : DataPlane) (p : Nat) (f : Usage → Usage) : (dp.addUsage p f).collector = dp.collector := rfl
@[simp] theorem DataPlane.addUsage_parts (dp : DataPlane) (p : Nat) (f : Usage → Usage) : (dp.addUsage p f).parts = dp.parts := rfl
@[simp] theorem DataPlane.addUsage_pools (dp : DataPlane) (p : Nat) (f : Usage → Usage) : (dp.addUsage p f).pools = dp.pools := rfl
@[simp] theorem DataPlane.addUsage_net (dp : DataPlane) (p : Nat) (f : Usage → Usage) : (dp.addUsage p f).net = dp.net := rfl
@[simp] theorem DataPlane.addUsage_services (dp : DataPlane) (p : Nat) (f : Usage → Usage) : (dp.addUsage p f).services = dp.services := rfl
@[simp] theorem DataPlane.addUsage_coll (dp : DataPlane) (p : Nat) (f : Usage → Usage) : (dp.addUsage p f).coll = dp.coll := rfl
@[simp] theorem DataPlane.addUsage_tagNext (dp : DataPlane) (p : Nat) (f : Usage → Usage) : (dp.addUsage p f).tagNext = dp.tagNext := rfl
@[simp] theorem DataPlane.addUsage_remoteOut (dp : DataPlane) (p : Nat) (f : Usage → Usage) : (dp.addUsage p f).remoteOut = dp.remoteOut := rfl
@[simp] theorem DataPlane.addUsage_remoteIn (dp : DataPlane) (p : Nat) (f : Usage → Usage) : (dp.addUsage p f).remoteIn = dp.remoteIn := rfl
@[simp] theorem DataPlane.addUsage_fabOut (dp : DataPlane) (p : Nat) (f : Usage → Usage) : (dp.addUsage p f).fabOut = dp.fabOut := rfl
@[simp] theorem DataPlane.addUsage_irqs (dp : DataPlane) (p : Nat) (f : Usage → Usage) : (dp.addUsage p f).irqs = dp.irqs := rfl
@[simp] theorem DataPlane.addUsage_regs (dp : DataPlane) (p : Nat) (f : Usage → Usage) : (dp.addUsage p f).regs = dp.regs := rfl
@[simp] theorem DataPlane.addUsage_telem (dp : DataPlane) (p : Nat) (f : Usage → Usage) : (dp.addUsage p f).telem = dp.telem := rfl
@[simp] theorem DataPlane.addUsage_latch (dp : DataPlane) (p : Nat) (f : Usage → Usage) : (dp.addUsage p f).latch = dp.latch := rfl
@[simp] theorem DataPlane.addUsage_vfEnable (dp : DataPlane) (p : Nat) (f : Usage → Usage) : (dp.addUsage p f).vfEnable = dp.vfEnable := rfl
@[simp] theorem DataPlane.addUsage_numVfs (dp : DataPlane) (p : Nat) (f : Usage → Usage) : (dp.addUsage p f).numVfs = dp.numVfs := rfl
@[simp] theorem DataPlane.addUsage_pcieDown (dp : DataPlane) (p : Nat) (f : Usage → Usage) : (dp.addUsage p f).pcieDown = dp.pcieDown := rfl
@[simp] theorem DataPlane.addUsage_aer (dp : DataPlane) (p : Nat) (f : Usage → Usage) : (dp.addUsage p f).aer = dp.aer := rfl
@[simp] theorem DataPlane.addUsage_narrow (dp : DataPlane) (p : Nat) (f : Usage → Usage) : (dp.addUsage p f).narrow = dp.narrow := rfl
@[simp] theorem DataPlane.addUsage_scrub (dp : DataPlane) (p : Nat) (f : Usage → Usage) : (dp.addUsage p f).scrub = dp.scrub := rfl
@[simp] theorem DataPlane.addUsage_collected (dp : DataPlane) (p : Nat) (f : Usage → Usage) : (dp.addUsage p f).collected = dp.collected := rfl
@[simp] theorem DataPlane.addUsage_hubQueue (dp : DataPlane) (p : Nat) (f : Usage → Usage) : (dp.addUsage p f).hubQueue = dp.hubQueue := rfl
@[simp] theorem DataPlane.addUsage_cpl (dp : DataPlane) (p : Nat) (f : Usage → Usage) : (dp.addUsage p f).cpl = dp.cpl := rfl
@[simp] theorem DataPlane.addUsage_fatal (dp : DataPlane) (p : Nat) (f : Usage → Usage) : (dp.addUsage p f).fatal = dp.fatal := rfl
@[simp] theorem DataPlane.addUsage_free (dp : DataPlane) (p : Nat) (f : Usage → Usage) : (dp.addUsage p f).free = dp.free := rfl

/-! ### Accesses that show an atomic to be too narrow, and writes of a tile -/

/-- A too-narrow atomic leaves its location undefined and changes nothing else (R257). -/
theorem DataPlane.stir_eq (dp : DataPlane) (g : Option Nat) (a n : Nat) :
    ∃ m k, dp.stir g a n = { dp with mem := m, free := k } := by
  unfold DataPlane.stir
  suffices h : ∀ (xs : List NarrowAtomic) (d : DataPlane), ∃ m k, xs.foldl (fun dp x =>
      { dp with mem := dp.mem.write x.addr (freshBytes dp.free x.len), free := dp.free + x.len }) d =
      { d with mem := m, free := k } from h _ _
  intro xs
  induction xs with
  | nil => exact fun d => ⟨d.mem, d.free, rfl⟩
  | cons x r ih => exact fun d => ih _

@[simp] theorem DataPlane.stir_tiles (dp : DataPlane) (g : Option Nat) (a n : Nat) : (dp.stir g a n).tiles = dp.tiles := by obtain ⟨m, k, h⟩ := dp.stir_eq g a n; rw [h]
@[simp] theorem DataPlane.stir_hubCores (dp : DataPlane) (g : Option Nat) (a n : Nat) : (dp.stir g a n).hubCores = dp.hubCores := by obtain ⟨m, k, h⟩ := dp.stir_eq g a n; rw [h]
@[simp] theorem DataPlane.stir_widths (dp : DataPlane) (g : Option Nat) (a n : Nat) : (dp.stir g a n).widths = dp.widths := by obtain ⟨m, k, h⟩ := dp.stir_eq g a n; rw [h]
@[simp] theorem DataPlane.stir_queues (dp : DataPlane) (g : Option Nat) (a n : Nat) : (dp.stir g a n).queues = dp.queues := by obtain ⟨m, k, h⟩ := dp.stir_eq g a n; rw [h]
@[simp] theorem DataPlane.stir_launches (dp : DataPlane) (g : Option Nat) (a n : Nat) : (dp.stir g a n).launches = dp.launches := by obtain ⟨m, k, h⟩ := dp.stir_eq g a n; rw [h]
@[simp] theorem DataPlane.stir_events (dp : DataPlane) (g : Option Nat) (a n : Nat) : (dp.stir g a n).events = dp.events := by obtain ⟨m, k, h⟩ := dp.stir_eq g a n; rw [h]
@[simp] theorem DataPlane.stir_combine (dp : DataPlane) (g : Option Nat) (a n : Nat) : (dp.stir g a n).combine = dp.combine := by obtain ⟨m, k, h⟩ := dp.stir_eq g a n; rw [h]
@[simp] theorem DataPlane.stir_served (dp : DataPlane) (g : Option Nat) (a n : Nat) : (dp.stir g a n).served = dp.served := by obtain ⟨m, k, h⟩ := dp.stir_eq g a n; rw [h]
@[simp] theorem DataPlane.stir_collector (dp : DataPlane) (g : Option Nat) (a n : Nat) : (dp.stir g a n).collector = dp.collector := by obtain ⟨m, k, h⟩ := dp.stir_eq g a n; rw [h]
@[simp] theorem DataPlane.stir_parts (dp : DataPlane) (g : Option Nat) (a n : Nat) : (dp.stir g a n).parts = dp.parts := by obtain ⟨m, k, h⟩ := dp.stir_eq g a n; rw [h]
@[simp] theorem DataPlane.stir_pools (dp : DataPlane) (g : Option Nat) (a n : Nat) : (dp.stir g a n).pools = dp.pools := by obtain ⟨m, k, h⟩ := dp.stir_eq g a n; rw [h]
@[simp] theorem DataPlane.stir_meter (dp : DataPlane) (g : Option Nat) (a n : Nat) : (dp.stir g a n).meter = dp.meter := by obtain ⟨m, k, h⟩ := dp.stir_eq g a n; rw [h]
@[simp] theorem DataPlane.stir_net (dp : DataPlane) (g : Option Nat) (a n : Nat) : (dp.stir g a n).net = dp.net := by obtain ⟨m, k, h⟩ := dp.stir_eq g a n; rw [h]
@[simp] theorem DataPlane.stir_services (dp : DataPlane) (g : Option Nat) (a n : Nat) : (dp.stir g a n).services = dp.services := by obtain ⟨m, k, h⟩ := dp.stir_eq g a n; rw [h]
@[simp] theorem DataPlane.stir_coll (dp : DataPlane) (g : Option Nat) (a n : Nat) : (dp.stir g a n).coll = dp.coll := by obtain ⟨m, k, h⟩ := dp.stir_eq g a n; rw [h]
@[simp] theorem DataPlane.stir_tagNext (dp : DataPlane) (g : Option Nat) (a n : Nat) : (dp.stir g a n).tagNext = dp.tagNext := by obtain ⟨m, k, h⟩ := dp.stir_eq g a n; rw [h]
@[simp] theorem DataPlane.stir_remoteOut (dp : DataPlane) (g : Option Nat) (a n : Nat) : (dp.stir g a n).remoteOut = dp.remoteOut := by obtain ⟨m, k, h⟩ := dp.stir_eq g a n; rw [h]
@[simp] theorem DataPlane.stir_remoteIn (dp : DataPlane) (g : Option Nat) (a n : Nat) : (dp.stir g a n).remoteIn = dp.remoteIn := by obtain ⟨m, k, h⟩ := dp.stir_eq g a n; rw [h]
@[simp] theorem DataPlane.stir_fabOut (dp : DataPlane) (g : Option Nat) (a n : Nat) : (dp.stir g a n).fabOut = dp.fabOut := by obtain ⟨m, k, h⟩ := dp.stir_eq g a n; rw [h]
@[simp] theorem DataPlane.stir_irqs (dp : DataPlane) (g : Option Nat) (a n : Nat) : (dp.stir g a n).irqs = dp.irqs := by obtain ⟨m, k, h⟩ := dp.stir_eq g a n; rw [h]
@[simp] theorem DataPlane.stir_regs (dp : DataPlane) (g : Option Nat) (a n : Nat) : (dp.stir g a n).regs = dp.regs := by obtain ⟨m, k, h⟩ := dp.stir_eq g a n; rw [h]
@[simp] theorem DataPlane.stir_telem (dp : DataPlane) (g : Option Nat) (a n : Nat) : (dp.stir g a n).telem = dp.telem := by obtain ⟨m, k, h⟩ := dp.stir_eq g a n; rw [h]
@[simp] theorem DataPlane.stir_latch (dp : DataPlane) (g : Option Nat) (a n : Nat) : (dp.stir g a n).latch = dp.latch := by obtain ⟨m, k, h⟩ := dp.stir_eq g a n; rw [h]
@[simp] theorem DataPlane.stir_vfEnable (dp : DataPlane) (g : Option Nat) (a n : Nat) : (dp.stir g a n).vfEnable = dp.vfEnable := by obtain ⟨m, k, h⟩ := dp.stir_eq g a n; rw [h]
@[simp] theorem DataPlane.stir_numVfs (dp : DataPlane) (g : Option Nat) (a n : Nat) : (dp.stir g a n).numVfs = dp.numVfs := by obtain ⟨m, k, h⟩ := dp.stir_eq g a n; rw [h]
@[simp] theorem DataPlane.stir_pcieDown (dp : DataPlane) (g : Option Nat) (a n : Nat) : (dp.stir g a n).pcieDown = dp.pcieDown := by obtain ⟨m, k, h⟩ := dp.stir_eq g a n; rw [h]
@[simp] theorem DataPlane.stir_aer (dp : DataPlane) (g : Option Nat) (a n : Nat) : (dp.stir g a n).aer = dp.aer := by obtain ⟨m, k, h⟩ := dp.stir_eq g a n; rw [h]
@[simp] theorem DataPlane.stir_narrow (dp : DataPlane) (g : Option Nat) (a n : Nat) : (dp.stir g a n).narrow = dp.narrow := by obtain ⟨m, k, h⟩ := dp.stir_eq g a n; rw [h]
@[simp] theorem DataPlane.stir_scrub (dp : DataPlane) (g : Option Nat) (a n : Nat) : (dp.stir g a n).scrub = dp.scrub := by obtain ⟨m, k, h⟩ := dp.stir_eq g a n; rw [h]
@[simp] theorem DataPlane.stir_collected (dp : DataPlane) (g : Option Nat) (a n : Nat) : (dp.stir g a n).collected = dp.collected := by obtain ⟨m, k, h⟩ := dp.stir_eq g a n; rw [h]
@[simp] theorem DataPlane.stir_hubQueue (dp : DataPlane) (g : Option Nat) (a n : Nat) : (dp.stir g a n).hubQueue = dp.hubQueue := by obtain ⟨m, k, h⟩ := dp.stir_eq g a n; rw [h]
@[simp] theorem DataPlane.stir_cpl (dp : DataPlane) (g : Option Nat) (a n : Nat) : (dp.stir g a n).cpl = dp.cpl := by obtain ⟨m, k, h⟩ := dp.stir_eq g a n; rw [h]
@[simp] theorem DataPlane.stir_fatal (dp : DataPlane) (g : Option Nat) (a n : Nat) : (dp.stir g a n).fatal = dp.fatal := by obtain ⟨m, k, h⟩ := dp.stir_eq g a n; rw [h]
@[simp] theorem DataPlane.tileWrite_hubCores (dp : DataPlane) (t a : Nat) (bs : List Byte) : (dp.tileWrite t a bs).hubCores = dp.hubCores := by simp [DataPlane.tileWrite]
@[simp] theorem DataPlane.tileWrite_widths (dp : DataPlane) (t a : Nat) (bs : List Byte) : (dp.tileWrite t a bs).widths = dp.widths := by simp [DataPlane.tileWrite]
@[simp] theorem DataPlane.tileWrite_queues (dp : DataPlane) (t a : Nat) (bs : List Byte) : (dp.tileWrite t a bs).queues = dp.queues := by simp [DataPlane.tileWrite]
@[simp] theorem DataPlane.tileWrite_launches (dp : DataPlane) (t a : Nat) (bs : List Byte) : (dp.tileWrite t a bs).launches = dp.launches := by simp [DataPlane.tileWrite]
@[simp] theorem DataPlane.tileWrite_events (dp : DataPlane) (t a : Nat) (bs : List Byte) : (dp.tileWrite t a bs).events = dp.events := by simp [DataPlane.tileWrite]
@[simp] theorem DataPlane.tileWrite_combine (dp : DataPlane) (t a : Nat) (bs : List Byte) : (dp.tileWrite t a bs).combine = dp.combine := by simp [DataPlane.tileWrite]
@[simp] theorem DataPlane.tileWrite_served (dp : DataPlane) (t a : Nat) (bs : List Byte) : (dp.tileWrite t a bs).served = dp.served := by simp [DataPlane.tileWrite]
@[simp] theorem DataPlane.tileWrite_collector (dp : DataPlane) (t a : Nat) (bs : List Byte) : (dp.tileWrite t a bs).collector = dp.collector := by simp [DataPlane.tileWrite]
@[simp] theorem DataPlane.tileWrite_parts (dp : DataPlane) (t a : Nat) (bs : List Byte) : (dp.tileWrite t a bs).parts = dp.parts := by simp [DataPlane.tileWrite]
@[simp] theorem DataPlane.tileWrite_pools (dp : DataPlane) (t a : Nat) (bs : List Byte) : (dp.tileWrite t a bs).pools = dp.pools := by simp [DataPlane.tileWrite]
@[simp] theorem DataPlane.tileWrite_net (dp : DataPlane) (t a : Nat) (bs : List Byte) : (dp.tileWrite t a bs).net = dp.net := by simp [DataPlane.tileWrite]
@[simp] theorem DataPlane.tileWrite_services (dp : DataPlane) (t a : Nat) (bs : List Byte) : (dp.tileWrite t a bs).services = dp.services := by simp [DataPlane.tileWrite]
@[simp] theorem DataPlane.tileWrite_coll (dp : DataPlane) (t a : Nat) (bs : List Byte) : (dp.tileWrite t a bs).coll = dp.coll := by simp [DataPlane.tileWrite]
@[simp] theorem DataPlane.tileWrite_tagNext (dp : DataPlane) (t a : Nat) (bs : List Byte) : (dp.tileWrite t a bs).tagNext = dp.tagNext := by simp [DataPlane.tileWrite]
@[simp] theorem DataPlane.tileWrite_remoteOut (dp : DataPlane) (t a : Nat) (bs : List Byte) : (dp.tileWrite t a bs).remoteOut = dp.remoteOut := by simp [DataPlane.tileWrite]
@[simp] theorem DataPlane.tileWrite_remoteIn (dp : DataPlane) (t a : Nat) (bs : List Byte) : (dp.tileWrite t a bs).remoteIn = dp.remoteIn := by simp [DataPlane.tileWrite]
@[simp] theorem DataPlane.tileWrite_fabOut (dp : DataPlane) (t a : Nat) (bs : List Byte) : (dp.tileWrite t a bs).fabOut = dp.fabOut := by simp [DataPlane.tileWrite]
@[simp] theorem DataPlane.tileWrite_irqs (dp : DataPlane) (t a : Nat) (bs : List Byte) : (dp.tileWrite t a bs).irqs = dp.irqs := by simp [DataPlane.tileWrite]
@[simp] theorem DataPlane.tileWrite_regs (dp : DataPlane) (t a : Nat) (bs : List Byte) : (dp.tileWrite t a bs).regs = dp.regs := by simp [DataPlane.tileWrite]
@[simp] theorem DataPlane.tileWrite_telem (dp : DataPlane) (t a : Nat) (bs : List Byte) : (dp.tileWrite t a bs).telem = dp.telem := by simp [DataPlane.tileWrite]
@[simp] theorem DataPlane.tileWrite_latch (dp : DataPlane) (t a : Nat) (bs : List Byte) : (dp.tileWrite t a bs).latch = dp.latch := by simp [DataPlane.tileWrite]
@[simp] theorem DataPlane.tileWrite_vfEnable (dp : DataPlane) (t a : Nat) (bs : List Byte) : (dp.tileWrite t a bs).vfEnable = dp.vfEnable := by simp [DataPlane.tileWrite]
@[simp] theorem DataPlane.tileWrite_numVfs (dp : DataPlane) (t a : Nat) (bs : List Byte) : (dp.tileWrite t a bs).numVfs = dp.numVfs := by simp [DataPlane.tileWrite]
@[simp] theorem DataPlane.tileWrite_pcieDown (dp : DataPlane) (t a : Nat) (bs : List Byte) : (dp.tileWrite t a bs).pcieDown = dp.pcieDown := by simp [DataPlane.tileWrite]
@[simp] theorem DataPlane.tileWrite_aer (dp : DataPlane) (t a : Nat) (bs : List Byte) : (dp.tileWrite t a bs).aer = dp.aer := by simp [DataPlane.tileWrite]
@[simp] theorem DataPlane.tileWrite_narrow (dp : DataPlane) (t a : Nat) (bs : List Byte) : (dp.tileWrite t a bs).narrow = dp.narrow := by simp [DataPlane.tileWrite]
@[simp] theorem DataPlane.tileWrite_scrub (dp : DataPlane) (t a : Nat) (bs : List Byte) : (dp.tileWrite t a bs).scrub = dp.scrub := by simp [DataPlane.tileWrite]
@[simp] theorem DataPlane.tileWrite_collected (dp : DataPlane) (t a : Nat) (bs : List Byte) : (dp.tileWrite t a bs).collected = dp.collected := by simp [DataPlane.tileWrite]
@[simp] theorem DataPlane.tileWrite_hubQueue (dp : DataPlane) (t a : Nat) (bs : List Byte) : (dp.tileWrite t a bs).hubQueue = dp.hubQueue := by simp [DataPlane.tileWrite]
@[simp] theorem DataPlane.tileWrite_cpl (dp : DataPlane) (t a : Nat) (bs : List Byte) : (dp.tileWrite t a bs).cpl = dp.cpl := by simp [DataPlane.tileWrite]
@[simp] theorem DataPlane.tileWrite_fatal (dp : DataPlane) (t a : Nat) (bs : List Byte) : (dp.tileWrite t a bs).fatal = dp.fatal := by simp [DataPlane.tileWrite]

/-! ### Writes to a core -/

@[simp] theorem DataPlane.setCore_mem (dp : DataPlane) (c : CoreId) (k : Core) : (dp.setCore c k).mem = dp.mem := by cases c <;> rfl
@[simp] theorem DataPlane.setCore_widths (dp : DataPlane) (c : CoreId) (k : Core) : (dp.setCore c k).widths = dp.widths := by cases c <;> rfl
@[simp] theorem DataPlane.setCore_queues (dp : DataPlane) (c : CoreId) (k : Core) : (dp.setCore c k).queues = dp.queues := by cases c <;> rfl
@[simp] theorem DataPlane.setCore_launches (dp : DataPlane) (c : CoreId) (k : Core) : (dp.setCore c k).launches = dp.launches := by cases c <;> rfl
@[simp] theorem DataPlane.setCore_events (dp : DataPlane) (c : CoreId) (k : Core) : (dp.setCore c k).events = dp.events := by cases c <;> rfl
@[simp] theorem DataPlane.setCore_combine (dp : DataPlane) (c : CoreId) (k : Core) : (dp.setCore c k).combine = dp.combine := by cases c <;> rfl
@[simp] theorem DataPlane.setCore_served (dp : DataPlane) (c : CoreId) (k : Core) : (dp.setCore c k).served = dp.served := by cases c <;> rfl
@[simp] theorem DataPlane.setCore_collector (dp : DataPlane) (c : CoreId) (k : Core) : (dp.setCore c k).collector = dp.collector := by cases c <;> rfl
@[simp] theorem DataPlane.setCore_parts (dp : DataPlane) (c : CoreId) (k : Core) : (dp.setCore c k).parts = dp.parts := by cases c <;> rfl
@[simp] theorem DataPlane.setCore_pools (dp : DataPlane) (c : CoreId) (k : Core) : (dp.setCore c k).pools = dp.pools := by cases c <;> rfl
@[simp] theorem DataPlane.setCore_meter (dp : DataPlane) (c : CoreId) (k : Core) : (dp.setCore c k).meter = dp.meter := by cases c <;> rfl
@[simp] theorem DataPlane.setCore_net (dp : DataPlane) (c : CoreId) (k : Core) : (dp.setCore c k).net = dp.net := by cases c <;> rfl
@[simp] theorem DataPlane.setCore_services (dp : DataPlane) (c : CoreId) (k : Core) : (dp.setCore c k).services = dp.services := by cases c <;> rfl
@[simp] theorem DataPlane.setCore_coll (dp : DataPlane) (c : CoreId) (k : Core) : (dp.setCore c k).coll = dp.coll := by cases c <;> rfl
@[simp] theorem DataPlane.setCore_tagNext (dp : DataPlane) (c : CoreId) (k : Core) : (dp.setCore c k).tagNext = dp.tagNext := by cases c <;> rfl
@[simp] theorem DataPlane.setCore_remoteOut (dp : DataPlane) (c : CoreId) (k : Core) : (dp.setCore c k).remoteOut = dp.remoteOut := by cases c <;> rfl
@[simp] theorem DataPlane.setCore_remoteIn (dp : DataPlane) (c : CoreId) (k : Core) : (dp.setCore c k).remoteIn = dp.remoteIn := by cases c <;> rfl
@[simp] theorem DataPlane.setCore_fabOut (dp : DataPlane) (c : CoreId) (k : Core) : (dp.setCore c k).fabOut = dp.fabOut := by cases c <;> rfl
@[simp] theorem DataPlane.setCore_irqs (dp : DataPlane) (c : CoreId) (k : Core) : (dp.setCore c k).irqs = dp.irqs := by cases c <;> rfl
@[simp] theorem DataPlane.setCore_regs (dp : DataPlane) (c : CoreId) (k : Core) : (dp.setCore c k).regs = dp.regs := by cases c <;> rfl
@[simp] theorem DataPlane.setCore_telem (dp : DataPlane) (c : CoreId) (k : Core) : (dp.setCore c k).telem = dp.telem := by cases c <;> rfl
@[simp] theorem DataPlane.setCore_latch (dp : DataPlane) (c : CoreId) (k : Core) : (dp.setCore c k).latch = dp.latch := by cases c <;> rfl
@[simp] theorem DataPlane.setCore_vfEnable (dp : DataPlane) (c : CoreId) (k : Core) : (dp.setCore c k).vfEnable = dp.vfEnable := by cases c <;> rfl
@[simp] theorem DataPlane.setCore_numVfs (dp : DataPlane) (c : CoreId) (k : Core) : (dp.setCore c k).numVfs = dp.numVfs := by cases c <;> rfl
@[simp] theorem DataPlane.setCore_pcieDown (dp : DataPlane) (c : CoreId) (k : Core) : (dp.setCore c k).pcieDown = dp.pcieDown := by cases c <;> rfl
@[simp] theorem DataPlane.setCore_aer (dp : DataPlane) (c : CoreId) (k : Core) : (dp.setCore c k).aer = dp.aer := by cases c <;> rfl
@[simp] theorem DataPlane.setCore_narrow (dp : DataPlane) (c : CoreId) (k : Core) : (dp.setCore c k).narrow = dp.narrow := by cases c <;> rfl
@[simp] theorem DataPlane.setCore_scrub (dp : DataPlane) (c : CoreId) (k : Core) : (dp.setCore c k).scrub = dp.scrub := by cases c <;> rfl
@[simp] theorem DataPlane.setCore_collected (dp : DataPlane) (c : CoreId) (k : Core) : (dp.setCore c k).collected = dp.collected := by cases c <;> rfl
@[simp] theorem DataPlane.setCore_hubQueue (dp : DataPlane) (c : CoreId) (k : Core) : (dp.setCore c k).hubQueue = dp.hubQueue := by cases c <;> rfl
@[simp] theorem DataPlane.setCore_cpl (dp : DataPlane) (c : CoreId) (k : Core) : (dp.setCore c k).cpl = dp.cpl := by cases c <;> rfl
@[simp] theorem DataPlane.setCore_fatal (dp : DataPlane) (c : CoreId) (k : Core) : (dp.setCore c k).fatal = dp.fatal := by cases c <;> rfl
@[simp] theorem DataPlane.setCore_free (dp : DataPlane) (c : CoreId) (k : Core) : (dp.setCore c k).free = dp.free := by cases c <;> rfl

/-! ### Tiles -/

@[simp] theorem Tile.setCore_cores (x : Tile) (c : Nat) (k : Core) : (x.setCore c k).cores = SMap.set Core.init x.cores c k := rfl
@[simp] theorem Tile.setCore_tokens (x : Tile) (c : Nat) (k : Core) : (x.setCore c k).tokens = x.tokens := rfl
@[simp] theorem Tile.setCore_engines (x : Tile) (c : Nat) (k : Core) : (x.setCore c k).engines = x.engines := rfl
@[simp] theorem Tile.setCore_slots (x : Tile) (c : Nat) (k : Core) : (x.setCore c k).slots = x.slots := rfl
@[simp] theorem Tile.setCore_tables (x : Tile) (c : Nat) (k : Core) : (x.setCore c k).tables = x.tables := rfl
@[simp] theorem Tile.setCore_cache (x : Tile) (c : Nat) (k : Core) : (x.setCore c k).cache = x.cache := rfl
@[simp] theorem Tile.setCore_fills (x : Tile) (c : Nat) (k : Core) : (x.setCore c k).fills = x.fills := rfl
@[simp] theorem Tile.setCore_tlb (x : Tile) (c : Nat) (k : Core) : (x.setCore c k).tlb = x.tlb := rfl
@[simp] theorem Tile.setCore_phase (x : Tile) (c : Nat) (k : Core) : (x.setCore c k).phase = x.phase := rfl
@[simp] theorem Tile.setCore_launch (x : Tile) (c : Nat) (k : Core) : (x.setCore c k).launch = x.launch := rfl
@[simp] theorem Tile.setCore_tag (x : Tile) (c : Nat) (k : Core) : (x.setCore c k).tag = x.tag := rfl
@[simp] theorem Tile.setCore_packBad (x : Tile) (c : Nat) (k : Core) : (x.setCore c k).packBad = x.packBad := rfl
@[simp] theorem Tile.setCore_patchBlocks (x : Tile) (c : Nat) (k : Core) : (x.setCore c k).patchBlocks = x.patchBlocks := rfl
@[simp] theorem Tile.setCore_fault (x : Tile) (c : Nat) (k : Core) : (x.setCore c k).fault = x.fault := rfl
@[simp] theorem Tile.setCore_reported (x : Tile) (c : Nat) (k : Core) : (x.setCore c k).reported = x.reported := rfl
@[simp] theorem Tile.setEngine_cores (x : Tile) (e : Nat) (k : Engine) : (x.setEngine e k).cores = x.cores := rfl
@[simp] theorem Tile.setEngine_tokens (x : Tile) (e : Nat) (k : Engine) : (x.setEngine e k).tokens = x.tokens := rfl
@[simp] theorem Tile.setEngine_engines (x : Tile) (e : Nat) (k : Engine) : (x.setEngine e k).engines = SMap.set Engine.init x.engines e k := rfl
@[simp] theorem Tile.setEngine_slots (x : Tile) (e : Nat) (k : Engine) : (x.setEngine e k).slots = x.slots := rfl
@[simp] theorem Tile.setEngine_tables (x : Tile) (e : Nat) (k : Engine) : (x.setEngine e k).tables = x.tables := rfl
@[simp] theorem Tile.setEngine_cache (x : Tile) (e : Nat) (k : Engine) : (x.setEngine e k).cache = x.cache := rfl
@[simp] theorem Tile.setEngine_fills (x : Tile) (e : Nat) (k : Engine) : (x.setEngine e k).fills = x.fills := rfl
@[simp] theorem Tile.setEngine_tlb (x : Tile) (e : Nat) (k : Engine) : (x.setEngine e k).tlb = x.tlb := rfl
@[simp] theorem Tile.setEngine_phase (x : Tile) (e : Nat) (k : Engine) : (x.setEngine e k).phase = x.phase := rfl
@[simp] theorem Tile.setEngine_launch (x : Tile) (e : Nat) (k : Engine) : (x.setEngine e k).launch = x.launch := rfl
@[simp] theorem Tile.setEngine_tag (x : Tile) (e : Nat) (k : Engine) : (x.setEngine e k).tag = x.tag := rfl
@[simp] theorem Tile.setEngine_packBad (x : Tile) (e : Nat) (k : Engine) : (x.setEngine e k).packBad = x.packBad := rfl
@[simp] theorem Tile.setEngine_patchBlocks (x : Tile) (e : Nat) (k : Engine) : (x.setEngine e k).patchBlocks = x.patchBlocks := rfl
@[simp] theorem Tile.setEngine_fault (x : Tile) (e : Nat) (k : Engine) : (x.setEngine e k).fault = x.fault := rfl
@[simp] theorem Tile.setEngine_reported (x : Tile) (e : Nat) (k : Engine) : (x.setEngine e k).reported = x.reported := rfl
@[simp] theorem Tile.setToken_cores (x : Tile) (t n : Nat) : (x.setToken t n).cores = x.cores := rfl
@[simp] theorem Tile.setToken_tokens (x : Tile) (t n : Nat) : (x.setToken t n).tokens = SMap.set 0 x.tokens t n := rfl
@[simp] theorem Tile.setToken_engines (x : Tile) (t n : Nat) : (x.setToken t n).engines = x.engines := rfl
@[simp] theorem Tile.setToken_slots (x : Tile) (t n : Nat) : (x.setToken t n).slots = x.slots := rfl
@[simp] theorem Tile.setToken_tables (x : Tile) (t n : Nat) : (x.setToken t n).tables = x.tables := rfl
@[simp] theorem Tile.setToken_cache (x : Tile) (t n : Nat) : (x.setToken t n).cache = x.cache := rfl
@[simp] theorem Tile.setToken_fills (x : Tile) (t n : Nat) : (x.setToken t n).fills = x.fills := rfl
@[simp] theorem Tile.setToken_tlb (x : Tile) (t n : Nat) : (x.setToken t n).tlb = x.tlb := rfl
@[simp] theorem Tile.setToken_phase (x : Tile) (t n : Nat) : (x.setToken t n).phase = x.phase := rfl
@[simp] theorem Tile.setToken_launch (x : Tile) (t n : Nat) : (x.setToken t n).launch = x.launch := rfl
@[simp] theorem Tile.setToken_tag (x : Tile) (t n : Nat) : (x.setToken t n).tag = x.tag := rfl
@[simp] theorem Tile.setToken_packBad (x : Tile) (t n : Nat) : (x.setToken t n).packBad = x.packBad := rfl
@[simp] theorem Tile.setToken_patchBlocks (x : Tile) (t n : Nat) : (x.setToken t n).patchBlocks = x.patchBlocks := rfl
@[simp] theorem Tile.setToken_fault (x : Tile) (t n : Nat) : (x.setToken t n).fault = x.fault := rfl
@[simp] theorem Tile.setToken_reported (x : Tile) (t n : Nat) : (x.setToken t n).reported = x.reported := rfl

/-! ### The fabric -/

@[simp] theorem Fabric.setLink_cfg (f : Fabric) (i : Nat) (l : Link) : (f.setLink i l).cfg = f.cfg := rfl
@[simp] theorem Fabric.setLink_links (f : Fabric) (i : Nat) (l : Link) : (f.setLink i l).links = SMap.set Link.init f.links i l := rfl
@[simp] theorem Fabric.setLink_taken (f : Fabric) (i : Nat) (l : Link) : (f.setLink i l).taken = f.taken := rfl
@[simp] theorem Fabric.setLink_orphan (f : Fabric) (i : Nat) (l : Link) : (f.setLink i l).orphan = f.orphan := rfl
@[simp] theorem Fabric.setLink_routes (f : Fabric) (i : Nat) (l : Link) : (f.setLink i l).routes = f.routes := rfl
@[simp] theorem Fabric.setLink_rewrites (f : Fabric) (i : Nat) (l : Link) : (f.setLink i l).rewrites = f.rewrites := rfl
@[simp] theorem Fabric.setLink_fabricMgr (f : Fabric) (i : Nat) (l : Link) : (f.setLink i l).fabricMgr = f.fabricMgr := rfl
@[simp] theorem Fabric.setLink_cellMgr (f : Fabric) (i : Nat) (l : Link) : (f.setLink i l).cellMgr = f.cellMgr := rfl
@[simp] theorem Fabric.setLink_cmAddr (f : Fabric) (i : Nat) (l : Link) : (f.setLink i l).cmAddr = f.cmAddr := rfl
@[simp] theorem Fabric.setLink_fmAddr (f : Fabric) (i : Nat) (l : Link) : (f.setLink i l).fmAddr = f.fmAddr := rfl
@[simp] theorem Fabric.setLink_plumb (f : Fabric) (i : Nat) (l : Link) : (f.setLink i l).plumb = f.plumb := rfl
@[simp] theorem Fabric.setLink_shape (f : Fabric) (i : Nat) (l : Link) : (f.setLink i l).shape = f.shape := rfl
@[simp] theorem Fabric.setLink_taus (f : Fabric) (i : Nat) (l : Link) : (f.setLink i l).taus = f.taus := rfl
@[simp] theorem Fabric.setLink_losses (f : Fabric) (i : Nat) (l : Link) : (f.setLink i l).losses = f.losses := rfl
@[simp] theorem Fabric.setLink_spareUsed (f : Fabric) (i : Nat) (l : Link) : (f.setLink i l).spareUsed = f.spareUsed := rfl

end Sys2Proof.Machine
end

