-- ==== Sys2Proof/Laws/Links.lean ====
section
/-! SUPPORT. What a module's report, a change of Plumb state, and the messages of the network leave as they were. -/

namespace Sys2Proof.Machine

/-! ### Reports (R367) -/

/-- Everything that taking a report can do: a manager keeps it, or a cell manager keeps it and forwards the merged one. -/
theorem takeReport_cases (s : State) (r : Report) :
    takeReport s r = s ∨ takeReport s r = { s with fb := s.fb.setRole .fabric (s.fb.fabricMgr.keep r) } ∨
    takeReport s r = { s with
      fb := s.fb.setRole .cell (s.fb.cellMgr.keep r)
      dp := s.dp.send "cell-report" s.fb.fmAddr ((s.fb.cellMgr.keep r).reports.flatMap Report.values) [] } := by
  unfold takeReport
  split
  · exact .inr (.inl rfl)
  · split
    · exact .inr (.inr rfl)
    · exact .inl rfl

/-- Everything that a report can do. -/
theorem State.report_cases (s : State) :
    s.report = s ∨ s.report = takeReport s s.fb.report ∨
    s.report = { s with dp := s.dp.send "report" s.fb.reportTo s.fb.report.values [] } := by
  unfold State.report
  dsimp only
  split
  · exact .inl rfl
  · split
    · exact .inr (.inl rfl)
    · exact .inr (.inr rfl)

@[simp] theorem takeReport_mg (s : State) (r : Report) : (takeReport s r).mg = s.mg := by
  rcases takeReport_cases s r with h | h | h <;> rw [h]

@[simp] theorem takeReport_pending (s : State) (r : Report) : (takeReport s r).pending = s.pending := by
  rcases takeReport_cases s r with h | h | h <;> rw [h]

@[simp] theorem takeReport_mem (s : State) (r : Report) : (takeReport s r).dp.mem = s.dp.mem := by
  rcases takeReport_cases s r with h | h | h <;> rw [h] <;> rfl

@[simp] theorem takeReport_link (s : State) (r : Report) (i : Nat) : (takeReport s r).fb.link i = s.fb.link i := by
  rcases takeReport_cases s r with h | h | h <;> rw [h] <;> rfl

@[simp] theorem takeReport_plumb (s : State) (r : Report) : (takeReport s r).fb.plumb = s.fb.plumb := by
  rcases takeReport_cases s r with h | h | h <;> rw [h] <;> rfl

@[simp] theorem takeReport_cfg (s : State) (r : Report) : (takeReport s r).fb.cfg = s.fb.cfg := by
  rcases takeReport_cases s r with h | h | h <;> rw [h] <;> rfl

@[simp] theorem State.report_mg (s : State) : s.report.mg = s.mg := by
  rcases s.report_cases with h | h | h <;> rw [h] <;> simp

@[simp] theorem State.report_pending (s : State) : s.report.pending = s.pending := by
  rcases s.report_cases with h | h | h <;> rw [h] <;> simp

@[simp] theorem State.report_mem (s : State) : s.report.dp.mem = s.dp.mem := by
  rcases s.report_cases with h | h | h <;> rw [h] <;> simp

@[simp] theorem State.report_link (s : State) (i : Nat) : s.report.fb.link i = s.fb.link i := by
  rcases s.report_cases with h | h | h <;> rw [h] <;> simp

@[simp] theorem State.report_plumb (s : State) : s.report.fb.plumb = s.fb.plumb := by
  rcases s.report_cases with h | h | h <;> rw [h] <;> simp

@[simp] theorem State.report_cfg (s : State) : s.report.fb.cfg = s.fb.cfg := by
  rcases s.report_cases with h | h | h <;> rw [h] <;> simp

/-! ### Plumb state -/

@[simp] theorem State.setPlumb_plumb (s : State) (p : Plumb) : (s.setPlumb p).fb.plumb = p := by
  unfold State.setPlumb
  dsimp only
  split <;> simp

@[simp] theorem State.setPlumb_mg (s : State) (p : Plumb) : (s.setPlumb p).mg = s.mg := by
  unfold State.setPlumb
  dsimp only
  split <;> simp

@[simp] theorem State.setPlumb_mem (s : State) (p : Plumb) : (s.setPlumb p).dp.mem = s.dp.mem := by
  unfold State.setPlumb
  dsimp only
  split <;> simp

@[simp] theorem State.setPlumb_link (s : State) (p : Plumb) (i : Nat) : (s.setPlumb p).fb.link i = s.fb.link i := by
  unfold State.setPlumb
  dsimp only
  split
  · rfl
  · exact State.report_link _ i

/-! ### Link buffers -/

/-- What a link sends keeps its state and its neighbour (R348). -/
@[simp] theorem Link.transmit_st (l : Link) (x : Flit) : (l.transmit x).st = l.st := rfl
@[simp] theorem Link.transmit_txSeq (l : Link) (x : Flit) : (l.transmit x).txSeq = (l.txSeq + 1) % 4096 := rfl
@[simp] theorem Link.transmit_held (l : Link) (x : Flit) : (l.transmit x).held = l.held := rfl
@[simp] theorem Link.transmit_rxSeq (l : Link) (x : Flit) : (l.transmit x).rxSeq = l.rxSeq := rfl

/-- A freed receive buffer changes what one link owes, and nothing else. -/
theorem owe_cases (f : Fabric) (i vc : Nat) :
    owe f i vc = f ∨ owe f i vc = f.setLink i { f.link i with owed := SMap.modify 0 (f.link i).owed vc (· + 1) } := by
  unfold owe
  split
  · exact .inr rfl
  · exact .inl rfl

end Sys2Proof.Machine
end

