-- ==== Sys2Proof/Laws/Map.lean ====
section
/-! SUPPORT. Laws of sparse maps: a read after a write, and that every operation keeps the canonical form. -/

namespace Sys2Proof.Machine

variable {α : Type}

theorem SMap.wfFrom_mono [DecidableEq α] {d : α} {lo lo' : Nat} (h : lo' ≤ lo) :
    ∀ {m : SMap α}, SMap.wfFrom d lo m = true → SMap.wfFrom d lo' m = true
  | [], _ => rfl
  | (k, v) :: r, w => by
    simp only [SMap.wfFrom, Bool.and_eq_true, decide_eq_true_eq] at w ⊢
    exact ⟨⟨Nat.le_trans h w.1.1, w.1.2⟩, w.2⟩

/-- A key below the bound of a canonical map is not listed. -/
theorem SMap.get_of_lt [DecidableEq α] {d : α} {lo a : Nat} (h : a < lo) :
    ∀ {m : SMap α}, SMap.wfFrom d lo m = true → SMap.get d m a = d
  | [], _ => rfl
  | (k, v) :: r, w => by
    simp only [SMap.wfFrom, Bool.and_eq_true, decide_eq_true_eq] at w
    have hk : k ≠ a := by omega
    simp only [SMap.get, hk, if_false]
    exact SMap.get_of_lt (lo := k + 1) (by omega) w.2

theorem SMap.get_insert_self (d : α) (a : Nat) (x : α) : ∀ m : SMap α, SMap.get d (SMap.insert m a x) a = x
  | [] => by simp [SMap.insert, SMap.get]
  | (k, v) :: r => by
    unfold SMap.insert
    split
    · simp [SMap.get]
    · split
      · simp [SMap.get]
      · have hk : k ≠ a := by omega
        simp only [SMap.get, hk, if_false]
        exact SMap.get_insert_self d a x r

theorem SMap.get_insert_ne (d : α) {a b : Nat} (x : α) (h : a ≠ b) :
    ∀ m : SMap α, SMap.get d (SMap.insert m a x) b = SMap.get d m b
  | [] => by simp [SMap.insert, SMap.get, h]
  | (k, v) :: r => by
    unfold SMap.insert
    split
    · simp [SMap.get, h]
    · split
      · subst_vars
        simp [SMap.get, h]
      · simp only [SMap.get, SMap.get_insert_ne d x h r]

theorem SMap.get_erase_self (d : α) (a : Nat) : ∀ m : SMap α, SMap.get d (SMap.erase m a) a = d
  | [] => rfl
  | (k, v) :: r => by
    have ih := SMap.get_erase_self d a r
    unfold SMap.erase at ih ⊢
    by_cases h : k = a
    · simpa [h] using ih
    · simpa [h, SMap.get] using ih

theorem SMap.get_erase_ne (d : α) {a b : Nat} (h : a ≠ b) :
    ∀ m : SMap α, SMap.get d (SMap.erase m a) b = SMap.get d m b
  | [] => rfl
  | (k, v) :: r => by
    have ih := SMap.get_erase_ne d h r
    unfold SMap.erase at ih ⊢
    by_cases hk : k = a
    · have hb : k ≠ b := fun e => h (hk.symm.trans e)
      simpa [hk, SMap.get, h] using ih
    · by_cases hb : k = b
      · simp [SMap.get, hb, Ne.symm h]
      · simpa [hk, SMap.get, hb] using ih

/-- A read after a write of the same key gives the value written. -/
theorem SMap.get_set_self [DecidableEq α] (d : α) (m : SMap α) (a : Nat) (x : α) :
    SMap.get d (SMap.set d m a x) a = x := by
  unfold SMap.set
  split
  · subst_vars
    exact SMap.get_erase_self _ a m
  · exact SMap.get_insert_self d a x m

/-- A write leaves every other key alone. -/
theorem SMap.get_set_ne [DecidableEq α] (d : α) (m : SMap α) {a b : Nat} (x : α) (h : a ≠ b) :
    SMap.get d (SMap.set d m a x) b = SMap.get d m b := by
  unfold SMap.set
  split
  · exact SMap.get_erase_ne d h m
  · exact SMap.get_insert_ne d x h m

theorem SMap.wfFrom_insert [DecidableEq α] {d : α} {a : Nat} {x : α} (hx : x ≠ d) :
    ∀ {lo : Nat} {m : SMap α}, lo ≤ a → SMap.wfFrom d lo m = true → SMap.wfFrom d lo (SMap.insert m a x) = true
  | lo, [], hl, _ => by simp [SMap.insert, SMap.wfFrom, hl, hx]
  | lo, (k, v) :: r, hl, w => by
    simp only [SMap.wfFrom, Bool.and_eq_true, decide_eq_true_eq] at w
    unfold SMap.insert
    split
    · rename_i hk
      have hr : SMap.wfFrom d (a + 1) ((k, v) :: r) = true := by
        simp only [SMap.wfFrom, Bool.and_eq_true, decide_eq_true_eq]
        exact ⟨⟨hk, w.1.2⟩, w.2⟩
      simp only [SMap.wfFrom, Bool.and_eq_true, decide_eq_true_eq] at hr ⊢
      exact ⟨⟨hl, hx⟩, hr⟩
    · split
      · rename_i hk
        subst hk
        simp only [SMap.wfFrom, Bool.and_eq_true, decide_eq_true_eq]
        exact ⟨⟨hl, hx⟩, w.2⟩
      · simp only [SMap.wfFrom, Bool.and_eq_true, decide_eq_true_eq]
        exact ⟨w.1, SMap.wfFrom_insert hx (by omega) w.2⟩

theorem SMap.wfFrom_filter [DecidableEq α] {d : α} (p : Nat × α → Bool) :
    ∀ {lo : Nat} {m : SMap α}, SMap.wfFrom d lo m = true → SMap.wfFrom d lo (m.filter p) = true
  | _, [], _ => rfl
  | lo, (k, v) :: r, w => by
    simp only [SMap.wfFrom, Bool.and_eq_true, decide_eq_true_eq] at w
    simp only [List.filter_cons]
    split
    · simp only [SMap.wfFrom, Bool.and_eq_true, decide_eq_true_eq]
      exact ⟨w.1, SMap.wfFrom_filter p w.2⟩
    · exact SMap.wfFrom_mono (by omega) (SMap.wfFrom_filter p w.2)

/-- A write keeps the canonical form. -/
theorem SMap.wf_set [DecidableEq α] {d : α} {m : SMap α} (w : SMap.wf d m = true) (a : Nat) (x : α) :
    SMap.wf d (SMap.set d m a x) = true := by
  unfold SMap.set
  split
  · exact SMap.wfFrom_filter _ w
  · rename_i hx
    exact SMap.wfFrom_insert hx (Nat.zero_le a) w

theorem SMap.wf_modify [DecidableEq α] {d : α} {m : SMap α} (w : SMap.wf d m = true) (a : Nat) (f : α → α) :
    SMap.wf d (SMap.modify d m a f) = true := SMap.wf_set w a _

/-- Dropping a range of keys keeps the canonical form. -/
theorem SMap.wf_clear [DecidableEq α] {d : α} {m : SMap α} (w : SMap.wf d m = true) (lo hi : Nat) :
    SMap.wf d (SMap.clear m lo hi) = true := SMap.wfFrom_filter _ w

theorem SMap.get_filter (d : α) (p : Nat → Bool) (a : Nat) :
    ∀ m : SMap α, SMap.get d (m.filter (fun c => p c.1)) a = if p a then SMap.get d m a else d
  | [] => by simp [SMap.get]
  | (k, v) :: r => by
    simp only [List.filter_cons]
    by_cases hp : p k <;> by_cases hk : k = a
    · subst hk; simp [hp, SMap.get]
    · simp only [hp, if_true, SMap.get, hk, if_false]; exact SMap.get_filter d p a r
    · subst hk
      simp only [hp, Bool.false_eq_true, if_false]
      rw [SMap.get_filter d p k r]
      simp [hp]
    · simp only [hp, Bool.false_eq_true, if_false, SMap.get, hk]; exact SMap.get_filter d p a r

/-- A dropped key reads the default, and every other key reads as before. -/
theorem SMap.get_clear (d : α) (m : SMap α) (lo hi a : Nat) :
    SMap.get d (SMap.clear m lo hi) a = if lo ≤ a ∧ a < hi then d else SMap.get d m a := by
  unfold SMap.clear
  rw [SMap.get_filter d (fun k => k < lo || hi ≤ k) a m]
  by_cases h : lo ≤ a ∧ a < hi
  · have : ¬ (a < lo ∨ hi ≤ a) := by omega
    simp [h, this]
  · have : a < lo ∨ hi ≤ a := by omega
    simp [h, this]

end Sys2Proof.Machine
end

