-- ==== Sys2Proof/Laws/Memory.lean ====
section
/-! SUPPORT. Laws of memory: what reads after writes give, and that every memory operation keeps the canonical form. -/

namespace Sys2Proof.Machine

/-- Bytes outside a write are unchanged (R253). -/
theorem byteAt_writeBytes_outside (bs : List Byte) :
    ∀ (m : List Host.Cell) (a b : Nat), b < a ∨ a + bs.length ≤ b → byteAt (writeBytes m a bs) b = byteAt m b := by
  induction bs with
  | nil => intro m a b _; rfl
  | cons x r ih =>
    intro m a b h
    simp only [List.length_cons] at h
    simp only [writeBytes]
    rw [ih (SMap.set 0 m a x) (a + 1) b (by omega)]
    exact SMap.get_set_ne 0 m x (by omega)

/-- A write keeps the canonical form. -/
theorem writeBytes_wf (bs : List Byte) : ∀ (m : List Host.Cell) (a : Nat), Memory.wf m = true → Memory.wf (writeBytes m a bs) = true := by
  induction bs with
  | nil => intro m a h; exact h
  | cons x r ih => intro m a h; exact ih _ _ (SMap.wf_set h a x)

/-- A byte inside a write reads as written. -/
theorem byteAt_writeBytes_inside (bs : List Byte) :
    ∀ (m : List Host.Cell) (a i : Nat), (h : i < bs.length) → byteAt (writeBytes m a bs) (a + i) = bs[i] := by
  induction bs with
  | nil => intro m a i h; simp at h
  | cons x r ih =>
    intro m a i h
    simp only [writeBytes]
    cases i with
    | zero =>
      rw [byteAt_writeBytes_outside r _ _ _ (by omega)]
      exact SMap.get_set_self _ _ a x
    | succ j =>
      have := ih (SMap.set 0 m a x) (a + 1) j (by simpa using h)
      have e : a + (j + 1) = a + 1 + j := by omega
      rw [e, this]
      rfl

/-- Reading back the bytes of a write gives them. -/
theorem readBytes_writeBytes (m : List Host.Cell) (a : Nat) (bs : List Byte) :
    readBytes (writeBytes m a bs) a bs.length = bs := by
  apply List.ext_getElem
  · simp [readBytes]
  · intro i h1 h2
    simp only [readBytes, List.getElem_map, List.getElem_range]
    exact byteAt_writeBytes_inside bs m a i h2

theorem foldl_setPoison_wf (v : Bool) (gs : List Nat) :
    ∀ p : SMap Bool, SMap.wf false p = true → SMap.wf false (gs.foldl (fun p g => setPoison p g v) p) = true := by
  induction gs with
  | nil => intro p h; exact h
  | cons g r ih => intro p h; exact ih _ (SMap.wf_set h g v)

/-- A write to device memory keeps the canonical form. -/
theorem MemSys.wf_write (m : MemSys) (a : Nat) (bs : List Byte) (h : m.wf = true) : (m.write a bs).wf = true := by
  simp only [MemSys.wf, Bool.and_eq_true] at h ⊢
  exact ⟨⟨⟨⟨writeBytes_wf bs _ a h.1.1.1.1, h.1.1.1.2⟩, h.1.1.2⟩, foldl_setPoison_wf false _ _ h.1.2⟩, h.2⟩

/-- Zeroing keeps the canonical form. -/
theorem MemSys.wf_zero (m : MemSys) (lo hi : Nat) (h : m.wf = true) : (m.zero lo hi).wf = true := by
  simp only [MemSys.wf, Bool.and_eq_true] at h ⊢
  exact ⟨⟨⟨⟨SMap.wf_clear h.1.1.1.1 lo hi, h.1.1.1.2⟩, h.1.1.2⟩, SMap.wf_clear h.1.2 _ _⟩, h.2⟩

theorem foldl_set_wf (v : Bool) (gs : List Nat) :
    ∀ p : SMap Bool, SMap.wf false p = true → SMap.wf false (gs.foldl (fun p g => SMap.set false p g v) p) = true := by
  induction gs with
  | nil => intro p h; exact h
  | cons g r ih => intro p h; exact ih _ (SMap.wf_set h g v)

/-- Poisoning granules keeps the canonical form. -/
theorem DataPlane.wf_poisonGranules (dp : DataPlane) (gs : List Nat) (h : dp.mem.wf = true) :
    (dp.poisonGranules gs).mem.wf = true := by
  simp only [MemSys.wf, DataPlane.poisonGranules, Bool.and_eq_true] at h ⊢
  exact ⟨⟨h.1.1, foldl_setPoison_wf true _ _ h.1.2⟩, h.2⟩

/-- A write to host memory keeps the canonical form. -/
theorem DataPlane.wf_hostWrite (dp : DataPlane) (fn a : Nat) (bs : List Byte) (bad : Bool) (h : dp.mem.wf = true) :
    (dp.hostWrite fn a bs bad).mem.wf = true := by
  unfold DataPlane.hostWrite
  split
  · simp only [MemSys.wf, Bool.and_eq_true] at h ⊢
    exact ⟨⟨⟨⟨h.1.1.1.1, writeBytes_wf bs _ a h.1.1.1.2⟩, h.1.1.2⟩, h.1.2⟩, foldl_set_wf bad _ _ h.2⟩
  · exact h

/-- A write to another module's memory keeps the canonical form. -/
theorem MemSys.wf_far (m : MemSys) (k : Nat) (bs : List Byte) (h : m.wf = true) :
    MemSys.wf { m with far := writeBytes m.far k bs } = true := by
  simp only [MemSys.wf, Bool.and_eq_true] at h ⊢
  exact ⟨⟨⟨h.1.1.1, writeBytes_wf bs _ k h.1.1.2⟩, h.1.2⟩, h.2⟩

/-- A poison mark keeps the canonical form. -/
theorem setPoison_wf (p : SMap Bool) (g : Nat) (v : Bool) (h : SMap.wf false p = true) : SMap.wf false (setPoison p g v) = true :=
  SMap.wf_set h g v

/-- Reset memory has the canonical form. -/
theorem reset_memory_wf : State.reset.dp.mem.wf = true := rfl

/-- A write to device memory leaves every byte outside it unchanged (R253). -/
theorem MemSys.write_outside (m : MemSys) (a : Nat) (bs : List Byte) (b : Nat) (h : b < a ∨ a + bs.length ≤ b) :
    byteAt (m.write a bs).dev b = byteAt m.dev b := byteAt_writeBytes_outside bs _ a b h

@[simp] theorem MemSys.write_host (m : MemSys) (a : Nat) (bs : List Byte) : (m.write a bs).host = m.host := rfl
@[simp] theorem MemSys.write_acl (m : MemSys) (a : Nat) (bs : List Byte) : (m.write a bs).acl = m.acl := rfl
@[simp] theorem MemSys.write_syncBusy (m : MemSys) (a : Nat) (bs : List Byte) : (m.write a bs).syncBusy = m.syncBusy := rfl
@[simp] theorem MemSys.zero_host (m : MemSys) (lo hi : Nat) : (m.zero lo hi).host = m.host := rfl
@[simp] theorem MemSys.zero_acl (m : MemSys) (lo hi : Nat) : (m.zero lo hi).acl = m.acl := rfl

end Sys2Proof.Machine
end

