-- ==== Sys2Proof/Laws/Net.lean ====
section
/-! SUPPORT. What sending on a queue pair, failing one, and ending a record of a hub engine can do, said once. -/

namespace Sys2Proof.Machine

/-- Everything that a message on a queue pair can do (R320, R321): nothing, or the network's state and the pair's
partition's usage change. -/
theorem netSend_cases (dp : DataPlane) (n : Nat) (kind : String) (rq : Bool) (args : List Nat) (data : List Byte) :
    netSend dp n kind rq args data = dp ∨ ∃ (x : Qp) (net : Net), dp.qp n = some x ∧
      netSend dp n kind rq args data = (dp.addUsage x.part (fun u => { u with netTx := u.netTx + data.length })).setNet net := by
  unfold netSend
  cases h : dp.qp n with
  | none => exact .inl rfl
  | some x =>
    dsimp only
    by_cases he : (rq && decide (x.st = .error)) = true
    · rw [if_pos he]
      exact .inl rfl
    · rw [if_neg he]
      by_cases hq : (rq && !x.ud) = true
      · rw [if_pos hq]
        exact .inr ⟨x, _, rfl, rfl⟩
      · rw [if_neg hq]
        exact .inr ⟨x, _, rfl, rfl⟩

@[simp] theorem netSend_mem (dp : DataPlane) (n : Nat) (kind : String) (rq : Bool) (args : List Nat) (data : List Byte) :
    (netSend dp n kind rq args data).mem = dp.mem := by
  rcases netSend_cases dp n kind rq args data with h | ⟨x, net, _, h⟩ <;> rw [h] <;> rfl

@[simp] theorem netSend_tiles (dp : DataPlane) (n : Nat) (kind : String) (rq : Bool) (args : List Nat) (data : List Byte) :
    (netSend dp n kind rq args data).tiles = dp.tiles := by
  rcases netSend_cases dp n kind rq args data with h | ⟨x, net, _, h⟩ <;> rw [h] <;> rfl

@[simp] theorem netSend_queues (dp : DataPlane) (n : Nat) (kind : String) (rq : Bool) (args : List Nat) (data : List Byte) :
    (netSend dp n kind rq args data).queues = dp.queues := by
  rcases netSend_cases dp n kind rq args data with h | ⟨x, net, _, h⟩ <;> rw [h] <;> rfl

@[simp] theorem netSend_parts (dp : DataPlane) (n : Nat) (kind : String) (rq : Bool) (args : List Nat) (data : List Byte) :
    (netSend dp n kind rq args data).parts = dp.parts := by
  rcases netSend_cases dp n kind rq args data with h | ⟨x, net, _, h⟩ <;> rw [h] <;> rfl

@[simp] theorem netSend_collector (dp : DataPlane) (n : Nat) (kind : String) (rq : Bool) (args : List Nat) (data : List Byte) :
    (netSend dp n kind rq args data).collector = dp.collector := by
  rcases netSend_cases dp n kind rq args data with h | ⟨x, net, _, h⟩ <;> rw [h] <;> rfl

@[simp] theorem netSend_services (dp : DataPlane) (n : Nat) (kind : String) (rq : Bool) (args : List Nat) (data : List Byte) :
    (netSend dp n kind rq args data).services = dp.services := by
  rcases netSend_cases dp n kind rq args data with h | ⟨x, net, _, h⟩ <;> rw [h] <;> rfl

/-- Failing a queue pair changes the network's state only (R318, R321, R472). -/
theorem failQp_net (dp : DataPlane) (n : Nat) : ∃ net : Net, failQp dp n = dp.setNet net := by
  unfold failQp
  split
  · exact ⟨_, rfl⟩
  · exact ⟨dp.net, rfl⟩

/-- Ending a hub engine's record hands its token to the collector and changes nothing but its launch (R281). -/
@[simp] theorem hubEnd_mem (dp : DataPlane) (q seq : Nat) (f : Option Nat) : (hubEnd dp q seq f).mem = dp.mem := by
  unfold hubEnd DataPlane.modLaunch
  cases f <;> rfl

@[simp] theorem hubEnd_net (dp : DataPlane) (q seq : Nat) (f : Option Nat) : (hubEnd dp q seq f).net = dp.net := by
  unfold hubEnd DataPlane.modLaunch
  cases f <;> rfl

@[simp] theorem hubEnd_tiles (dp : DataPlane) (q seq : Nat) (f : Option Nat) : (hubEnd dp q seq f).tiles = dp.tiles := by
  unfold hubEnd DataPlane.modLaunch
  cases f <;> rfl

/-- The record's token is with the collector. -/
theorem hubEnd_collector (dp : DataPlane) (q seq : Nat) (f : Option Nat) :
    (hubEnd dp q seq f).collector = dp.collector ++ [(q, seq, 2)] := by
  unfold hubEnd DataPlane.modLaunch
  cases f <;> rfl

/-- The result of a command register leaves memory, tiles and the network alone (R285). -/
@[simp] theorem commandResult_mem (dp : DataPlane) (fn off r : Nat) : (commandResult dp fn off r).mem = dp.mem := rfl
@[simp] theorem commandResult_net (dp : DataPlane) (fn off r : Nat) : (commandResult dp fn off r).net = dp.net := rfl
@[simp] theorem commandResult_services (dp : DataPlane) (fn off r : Nat) : (commandResult dp fn off r).services = dp.services := rfl
@[simp] theorem commandResult_queues (dp : DataPlane) (fn off r : Nat) : (commandResult dp fn off r).queues = dp.queues := rfl

end Sys2Proof.Machine
end

