-- ==== Sys2Proof/Laws/Ops.lean ====
section
/-! SUPPORT. What the shared operations can do, said once: the environment of a command, a core instruction, an engine
instruction, a hub record, a session's command. -/

namespace Sys2Proof.Machine

/-! ### Environments of a command -/

@[simp] theorem State.env_plumb (s : State) : s.env.plumb = s.fb.plumb.ns := rfl
@[simp] theorem State.env_cfg (s : State) : s.env.cfg = s.fb.cfg := rfl
@[simp] theorem State.env_aligned (s : State) : s.env.aligned = s.fb.plumb.aligned := rfl

/-- The environment does not depend on the data plane but for a module-fatal fault. -/
theorem State.env_setDp (s : State) (d : DataPlane) (h : d.fatal = s.dp.fatal) : (s.setDp d).env = s.env := by
  simp only [State.env, State.setDp, h]

/-- A command of the data plane acts while work is served. -/
theorem State.work_serving {s : State} (h : s.env.serving = true) (f : Env → DataPlane → DataPlane) :
    s.work f = .next (s.setDp (f s.env s.dp)) := by
  unfold State.work
  rw [if_pos h]
  rfl

/-- It leaves the state unchanged otherwise. -/
theorem State.work_idle {s : State} (h : s.env.serving = false) (f : Env → DataPlane → DataPlane) : s.work f = .next s := by
  unfold State.work
  rw [if_neg (by simp [h])]

/-- A command of the data plane answers a next state that differs in the data plane only. -/
theorem State.work_cases {s t : State} {f : Env → DataPlane → DataPlane} (h : s.work f = .next t) :
    (s.env.serving = true ∧ t = s.setDp (f s.env s.dp)) ∨ (s.env.serving = false ∧ t = s) := by
  cases hs : s.env.serving with
  | true => rw [State.work_serving hs] at h; injection h with h; exact .inl ⟨rfl, h.symm⟩
  | false => rw [State.work_idle hs] at h; injection h with h; exact .inr ⟨rfl, h.symm⟩

theorem State.serve_serving {s : State} (h : s.env.serving = true) (f : State → State) : s.serve f = .next (f s) := by
  unfold State.serve
  rw [if_pos h]

theorem State.serve_idle {s : State} (h : s.env.serving = false) (f : State → State) : s.serve f = .next s := by
  unfold State.serve
  rw [if_neg (by simp [h])]

theorem State.hub_awake {s : State} (h : s.awake = true) (f : State → State) : s.hub f = .next (f s) := by
  unfold State.hub
  rw [if_pos h]

theorem State.hub_asleep {s : State} (h : s.awake = false) (f : State → State) : s.hub f = .next s := by
  unfold State.hub
  rw [if_neg (by simp [h])]

/-- A command of the hub answers the effect or the state itself. -/
theorem State.hub_cases {s t : State} {f : State → State} (h : s.hub f = .next t) :
    (s.awake = true ∧ t = f s) ∨ (s.awake = false ∧ t = s) := by
  cases hs : s.awake with
  | true => rw [State.hub_awake hs] at h; injection h with h; exact .inl ⟨rfl, h.symm⟩
  | false => rw [State.hub_asleep hs] at h; injection h with h; exact .inr ⟨rfl, h.symm⟩

theorem State.serve_cases {s t : State} {f : State → State} (h : s.serve f = .next t) :
    (s.env.serving = true ∧ t = f s) ∨ (s.env.serving = false ∧ t = s) := by
  cases hs : s.env.serving with
  | true => rw [State.serve_serving hs] at h; injection h with h; exact .inl ⟨rfl, h.symm⟩
  | false => rw [State.serve_idle hs] at h; injection h with h; exact .inr ⟨rfl, h.symm⟩

/-- A module-fatal fault stops the data plane and the hub (R18). -/
theorem State.serving_of_fatal {s : State} (h : s.dp.fatal = true) : s.env.serving = false := by
  simp [State.env, h]

theorem State.awake_of_fatal {s : State} (h : s.dp.fatal = true) : s.awake = false := by
  simp [State.awake, h]

/-- Work is served only while the hub runs. -/
theorem State.awake_of_serving {s : State} (h : s.env.serving = true) : s.awake = true := by
  simp only [State.env, Bool.and_eq_true] at h
  simp only [State.awake, Bool.and_eq_true]
  refine ⟨⟨?_, ?_⟩, h.2⟩
  · cases hb : s.mg.boot.st <;> simp_all [BootSt.isReady]
  · cases hb : s.mg.boot.st <;> simp_all [BootSt.isReady]

/-! ### Core instructions -/

/-- A core instruction that retires, waits or stalls. -/
theorem coreRun_done {s : State} {c : CoreId} {spells : Nat → Bool} (h : AtWord s c spells)
    {f : Core → CoreEnd} {dp : DataPlane} (hf : f (s.dp.core c) = .done dp) : coreRun s.env s.dp c spells f = dp := by
  unfold coreRun
  simp only [h.active, h.running, h.fetch, h.defined, h.word, hf, Bool.and_self, decide_true, if_true]

/-- A core instruction that faults. -/
theorem coreRun_fault {s : State} {c : CoreId} {spells : Nat → Bool} (h : AtWord s c spells)
    {f : Core → CoreEnd} {e : EFault} {d : Nat} (hf : f (s.dp.core c) = .fault e d) :
    coreRun s.env s.dp c spells f = coreFault s.env s.dp c e d := by
  unfold coreRun
  simp only [h.active, h.running, h.fetch, h.defined, h.word, hf, Bool.and_self, decide_true, if_true]

/-- Everything a core instruction can do. -/
theorem coreRun_cases (env : Env) (dp : DataPlane) (c : CoreId) (spells : Nat → Bool) (f : Core → CoreEnd) :
    coreRun env dp c spells f = dp ∨ f (dp.core c) = .done (coreRun env dp c spells f) ∨
    ∃ e d, coreRun env dp c spells f = coreFault env dp c e d := by
  unfold coreRun
  dsimp only
  split
  · split
    · split
      · cases hf : f (dp.core c) with
        | done d => exact .inr (.inl rfl)
        | fault e d => exact .inr (.inr ⟨e, d, rfl⟩)
      · exact .inl rfl
    · exact .inr (.inr ⟨_, _, rfl⟩)
  · exact .inl rfl

/-! ### Engine instructions -/

/-- An engine instruction that passes its checks starts. -/
theorem runEngine_started {s : State} {t e : Nat} {h : QEntry} {r : List QEntry} (a : AtHead s t e h r) (sub : Nat)
    {want : QEntry → Bool} (hw : want h = true) {f : DataPlane → QEntry → EngineM EngineEffect} {x : EngineEffect}
    (hf : f (s.taken t e r) h = .ok x) :
    s.setDp (runEngine s.env s.dp t e sub want f) = s.started t e h x := by
  have hc : (decide ((s.dp.tile t).phase = .running) && ((s.dp.tile t).engine e).run.isNone && h.granted && want h &&
      s.dp.enabled t) = true := by simp [a.running, a.idle, a.granted, a.enabled, hw]
  unfold State.taken at hf
  unfold runEngine
  simp only [a.head, hc, if_true]
  rw [hf]
  rfl

/-- An engine instruction that is refused or fails stops its tile (R203). -/
theorem runEngine_failed {s : State} {t e : Nat} {h : QEntry} {r : List QEntry} (a : AtHead s t e h r) (sub : Nat)
    {want : QEntry → Bool} (hw : want h = true) {f : DataPlane → QEntry → EngineM EngineEffect} {x : EngineFail}
    (hf : f (s.taken t e r) h = .error x) :
    runEngine s.env s.dp t e sub want f =
      engineFail s.env (x.after ((s.taken t e r).undefine t x.undef)) t e (x.unit.getD sub) h x.fault := by
  have hc : (decide ((s.dp.tile t).phase = .running) && ((s.dp.tile t).engine e).run.isNone && h.granted && want h &&
      s.dp.enabled t) = true := by simp [a.running, a.idle, a.granted, a.enabled, hw]
  unfold State.taken at hf ⊢
  unfold runEngine
  simp only [a.head, hc, if_true]
  rw [hf]

/-! ### Sessions -/

/-- An accepted command of a session whose role is allowed. -/
theorem State.inSession_allowed {s : State} {m : Msg} {y : Session} (h : InSession s m y) (cmd : Nat)
    {allowed : Session → Bool} (ha : allowed y = true) (f : Session → State → State) :
    s.inSession m cmd allowed f = .next (f y (s.accepted m y)) := by
  have h1 : ¬ 4032 < m.payload.length := Nat.not_lt.mpr h.short
  have h2 : ¬ 2 ≤ m.iface := Nat.not_le.mpr h.host
  have h3 : ¬ (y.iface ≠ m.iface) := by simp [h.bound]
  have h4 : ¬ (m.seq ≠ y.seq + 1) := by simp [h.next]
  unfold State.inSession State.message
  simp only [h.awake, h.up, Bool.and_self, if_true, h1, if_false, h2, decide_false, Bool.false_and, Bool.false_eq_true,
    h.known, h3, h4, ha, State.accepted]

/-- A command of a session whose role is not allowed is refused with SES_DENIED, and its SEQ is recorded (R447). -/
theorem State.inSession_denied {s : State} {m : Msg} {y : Session} (h : InSession s m y) (cmd : Nat)
    {allowed : Session → Bool} (ha : allowed y = false) (f : Session → State → State) :
    s.inSession m cmd allowed f = .next ((s.accepted m y).refuse m cmd stSesDenied) := by
  have h1 : ¬ 4032 < m.payload.length := Nat.not_lt.mpr h.short
  have h2 : ¬ 2 ≤ m.iface := Nat.not_le.mpr h.host
  have h3 : ¬ (y.iface ≠ m.iface) := by simp [h.bound]
  have h4 : ¬ (m.seq ≠ y.seq + 1) := by simp [h.next]
  unfold State.inSession State.message
  simp only [h.awake, h.up, Bool.and_self, if_true, h1, if_false, h2, decide_false, Bool.false_and, Bool.false_eq_true,
    h.known, h3, h4, ha, State.accepted]

end Sys2Proof.Machine
end

