-- ==== Sys2Proof/Tests/Slice0.lean ====
section
/-! SUPPORT. Small tests: ill-formed commands that WellFormed refuses, examples of the spec on single commands, and for the
hypotheses of every statement a state and operands that meet them. -/

namespace Sys2Proof.Tests
open Sys2Proof Sys2Proof.Machine

/-! ### States -/

/-- The module in READY, with nothing placed. -/
def booted : State := { State.reset with mg := { Mgmt.reset with boot := { Boot.init with st := .ready, phase := 6 } } }

def onDp (f : DataPlane → DataPlane) : State := { booted with dp := f booted.dp }

def tileLaunch0 : TileLaunch := ⟨0, 1, 0, 0, 1, 2, 1, 1, 0x80, 7, [], 0, 0x020000000000, none, 10, []⟩

/-- A core about to execute a word of a major opcode. -/
def atMajor (m : Nat) : Core := { Core.init with pc := privBase, mem := [(3, BitVec.ofNat 8 (4 * m))], st := .running }

/-- Tile 0 in a launch, its core 0 as given. -/
def tileWith (k : Core) (f : Tile → Tile) : State :=
  onDp (fun d => d.setTile 0 (f ({ Tile.init with phase := .running, launch := some tileLaunch0 }.setCore 0 k)))

def coreState (m : Nat) : State := tileWith (atMajor m) id

/-- Core 0 of tile 0 about to execute a word. -/
def coreWord (w : Nat) (regs : SMap U64) : State :=
  tileWith { atMajor 0 with mem := writeBytes [] 0 (leBytes 4 w), regs := regs } id

theorem at_spelled {w : Nat} {regs : SMap U64} {spells : Nat → Bool}
    (h : (coreActive (coreWord w regs).dp (.tile 0 0) && decide (((coreWord w regs).dp.core (.tile 0 0)).st = .running) &&
      fetchOk (.tile 0 0) ((coreWord w regs).dp.core (.tile 0 0)).pc) = true)
    (hs : (wordDefined (.tile 0 0) (fetchWord ((coreWord w regs).dp.core (.tile 0 0))) &&
      spells (fetchWord ((coreWord w regs).dp.core (.tile 0 0)))) = true) : AtWord (coreWord w regs) (.tile 0 0) spells := by
  simp only [Bool.and_eq_true, decide_eq_true_eq] at h hs
  exact ⟨rfl, h.1.1, h.1.2, h.2, hs.1, hs.2⟩

/-- Words of R180, R185, R254 and R259 written out from their fields: ALU x1, x2, x3; ALU immediate with −1; LUI; LOAD of 8
bytes; BRANCH on unsigned x1 < x2 by −2 words; CAS of 64 bits at DIE scope with acquire; FENCE release SYSTEM; ISSUE of OP 7
with its descriptor at x1; and the undefined words BRANCH condition 6, FADD of 64 bits, FENCE kind 0, the zero word. -/
theorem test_words :
    isAlu 1 2 3 0b00000100001000100001100000000000 = true ∧ isRegImmediate 2 1 2 0xFFFF 0b00001000001000101111111111111111 = true ∧
    isImmediate 3 0x8000 0b00001100001000001000000000000000 = true ∧
    isLoad 8 true false 1 0b00010000001000100000011100000000 = true ∧
    isBranch 4 1 2 (-2) 0b00011000001000101001111111111110 = true ∧
    isAtomic 1 ⟨.tile 0 0, true, .die, .acquire, 1, 2, 3⟩ 0b00100000001000100001110000010101 = true ∧
    isFence 2 .system 0b00100100000000000000000000001110 = true ∧ isIssue 1 0 0 7 0 0b01000000001000000000000000111000 = true ∧
    wordDefined (.tile 0 0) 0b00011000001000101101111111111110 = false ∧
    wordDefined (.tile 0 0) 0b00100000001000100001110010100101 = false ∧
    wordDefined (.tile 0 0) 0b00100100000000000000000000001100 = false ∧ wordDefined (.tile 0 0) 0 = false := by decide

def entry (op : Nat) (desc : List Byte) : QEntry := ⟨op, desc, none, none, none, 0, true⟩

/-- An engine of tile 0 idle with one granted instruction at its head. -/
def headState (e : Nat) (h : QEntry) : State := tileWith (atMajor 1) (fun x => { x with engines := [(e, { Engine.init with queue := [h] })] })

theorem at_head (e : Nat) (h : QEntry) (hg : h.granted = true) : AtHead (headState e h) 0 e h [] := by
  have he : ((headState e h).dp.tile 0).engine e = { Engine.init with queue := [h] } := by
    show SMap.get Engine.init [(e, { Engine.init with queue := [h] })] e = _
    simp [SMap.get]
  exact ⟨rfl, rfl, rfl, by rw [he]; rfl, by rw [he], hg⟩

/-! ### Examples of the spec -/

/-- R212's example: the module at (3, 17, 9). -/
theorem test_fabric_address :
    resolve { FabCfg.init with dx := 32, dy := 32, dz := 32 } 0x8E29000040000000 =
      .remote (3 * 1024 + 17 * 32 + 9) 0x40000000 := by decide

/-- R58's example: 0xB under E8M0 0x81 is −6.0, and −2.25 under E4M3-scale 0x3C. -/
theorem test_scaled_fp4 :
    toF32 ((codeVal 6 0xB).mul (scaleVal 1 0x81)) = 0xC0C00000 ∧
    toF32 ((codeVal 6 0xB).mul (scaleVal 2 0x3C)) = 0xC0100000 := by decide

/-- Chapter 2's packing example: ternary byte 0xA7 and INT2 byte 0xE4. -/
theorem test_packed_elements :
    (List.range 5).map (fun i => elemVal (fun _ => 0xA7) 8 0 i) = [1, 0, -1, -1, 1].map FVal.ofInt ∧
    (List.range 4).map (fun i => elemVal (fun _ => 0xE4) 9 0 i) = [0, 1, -2, -1].map FVal.ofInt := by decide

/-- Chapter 3's alignment example: the products below 2^-48 are cut before the sum. -/
theorem test_bf16_group :
    groupValue true ([0x3F80, 0x3980, 0x3080, 0].map (codeVal 1)) ([0x3F80, 0x3980, 0x3080, 0].map (codeVal 1))
      (.fin false 1 1) (.fin false 1 1) = 0x3F800000 := by decide

/-- Chapter 3's ordering example: 2^24 + 1 + 1 in ascending order stays 2^24. -/
theorem test_accumulation_order : fadd (fadd (fadd 0 0x4B800000) 0x3F800000) 0x3F800000 = 0x4B800000 := by decide

/-- Little-endian bytes of 32-bit words. -/
def words (ws : List Nat) : List Byte := ws.flatMap (leBytes 4)

/-- Chapter 4's FP4 block: 16 FP32 elements at 0x1000 of tile 0's store, JIT FLOOR into 0x2000 with scales at 0x3000. -/
def floorEntry : QEntry :=
  entry 1 (leBytes 2 1 ++ leBytes 2 16 ++ leBytes 12 0 ++ leBytes 8 (tileBase 0 + 0x1000) ++ leBytes 4 64 ++ leBytes 4 0x10000 ++
    leBytes 8 (tileBase 0 + 0x2000) ++ leBytes 4 16 ++ leBytes 4 0x10016 ++
    leBytes 8 (tileBase 0 + 0x3000) ++ leBytes 4 16 ++ leBytes 4 0x10000)

def floorBlock : State :=
  let s := headState 2 floorEntry
  let xs := words ([0x41500000, 0xC0200000, 0x3F400000, 0x40400000, 0xC0E00000, 0x3E800000, 0x41680000] ++ List.replicate 9 0)
  s.setDp { s.dp with mem := s.dp.mem.write (tileBase 0 + 0x1000) xs }

/-- What the conversion writes, and the tile once it has begun. -/
def floorWrites : List (Nat × List Byte) :=
  match convert 0 (floorBlock.taken 0 2 []) floorEntry with
  | .ok x => x.writes.flatten.map (fun w => (w.addr, w.data))
  | .error _ => []

def floorTile : Tile :=
  match convert 0 (floorBlock.taken 0 2 []) floorEntry with
  | .ok x => x.dp.tile 0
  | .error _ => Tile.init

def writtenAt (ws : List (Nat × List Byte)) (a : Nat) : Option Byte :=
  (ws.find? (fun w => w.1 ≤ a && a < w.1 + w.2.length)).bind (fun w => w.2[a - w.1]?)

theorem test_convert_floor :
    (List.range 8).map (fun i => writtenAt floorWrites (tileBase 0 + 0x2000 + i)) = [0xA7, 0x31, 0x0E, 0x07, 0, 0, 0, 0].map some ∧
    writtenAt floorWrites (tileBase 0 + 0x3000) = some 0x80 := by decide +kernel

theorem test_convert_statistics :
    SMap.get SkimSlot.init floorTile.slots 0 = ⟨16, 2, 0, 0, 0x41680000, 0x2280000, 0x1880000, 0x1EA80000⟩ := by decide +kernel

/-- Chapter 4's carried scale: window maxima 300, 900 and 310 with MARGIN 1. -/
theorem test_carried_scale :
    newScale 0x43960000 448 1 1 = 0x80 ∧ newScale 0x44610000 448 1 1 = 0x82 ∧ newScale 0x439B0000 448 1 1 = 0x80 := by decide

/-- Chapter 5's LNORM row: mean and variance of 1,000,000 to 1,000,003. -/
theorem test_lnorm_mean :
    let xs := [0x49742400, 0x49742410, 0x49742420, 0x49742430]
    let d := xs.map (fun v => fsub v 0x49742400)
    let q := fdiv (d.foldl fadd 0) 0x40800000
    fadd 0x49742400 q = 0x49742418 ∧
    fsub (fdiv (d.foldl (fun s v => ffma v v s) 0) 0x40800000) (fmul q q) = 0x3FA00000 := by decide

/-- Chapter 11's attribution of one interval. -/
theorem test_energy_shares :
    shareEnergy 24000000000 900 10000000 160 [(0, 40, 68000000000), (3, 80, 510000000000), (5, 40, 170000000000)] =
      [(0, 3613636364), (3, 14727272727), (5, 5659090909)] := by decide

/-- Chapter 13's exchange: an offset of 3.25 ns is 208 in 1/64 ns. -/
theorem test_exchange_offset :
    exchangeOffset (64 * 1000000000) (64 * 1000000036 + 48) (64 * 1000000100) (64 * 1000000143 + 16) = 208 := by decide

/-- R453's example: PCAP 2,000 W reads as 0x50C6_0000. -/
theorem test_mode_status : modeStatus { Security.reset with mode := { ModeTab.init with pcap := 2000 } } = 0x50C60000 := by decide

/-- The table gives its rows no bits, so no word spells a command. -/
theorem test_decode_none : decodeTableWord 32 0 = none ∧ (State.reset.withFetchWord 32 0).pending = [] := ⟨rfl, rfl⟩

/-! ### Ill-formed commands -/

def msg0 : Msg := ⟨0, 1, 1, []⟩

theorem test_ill_formed :
    ([.exit (.tile 168 0), .exit (.tile 0 8), .exit (.hub 64), .load (.tile 0 0) 3 false false 1 0, .store (.hub 64) 8 1 0,
      .atomicAdd ⟨.hub 64, true, .die, .relaxed, 1, 2, 3⟩, .evsig (.tile 0 0) 64 1, .matmul 168, .vopAdd 0 4, .func 168 0,
      .tableShadowSwap 0 2, .copy 0 2, .engineComplete 0 9, .engineAbort 169 0, .completionTokenCombine 168 0 1,
      .timedCoreStart 0 8, .queueCreate 17 0, .queueAbort 0 256, .recordFetch 256, .launchDispatch 0 0, .sample 256 1] :
        List Instr).all (fun i => !i.wellFormed) = true ∧
    ([.evSignal 17 0, .evErrClear 0 2048 0, .registerWrite .bar0 0 0 3 0, .partEnable 17, .patrolScrub (2 ^ 42) .clean,
      .remoteResponse (2 ^ 15) 0 0 ⟨[], []⟩, .fabricTimeout 0 (2 ^ 32), .arpRequest 2 0 [1, 2, 3, 4] [1, 2, 3, 4, 5, 6],
      .icmpEcho 0 0 [1] [1, 2, 3, 4, 5, 6] [], .neighborSolicitation 0 0 [1, 2, 3, 4] [1, 2, 3, 4, 5, 6], .frameDrop 2,
      .pfcPause 0 8 true, .netSrctabReread 2 0, .qpAckTimeOut 1024, .nvmeTimeout 64 0, .linkDisable 6,
      .identityFlit 0 ⟨2 ^ 15, 0, 0, 1, 1, 1⟩, .release 0 ⟨0, 6, 0, 1, 1, 1⟩] : List Instr).all (fun i => !i.wellFormed) = true ∧
    ([.flitReceive 0 (List.replicate 255 0),
      .routeRewrite 0 [⟨3, 0, true⟩], .timeTod [], .feedIdResponse 1024 0 0, .feedQueryTimeout 1024, .linkLoss 1024,
      .chunkAck 1024 0 0, .collectiveChunk ⟨1024, 0, 0, [], [], 0, 0, true, 0, 0, []⟩,
      .getCerts { msg0 with iface := 2 }, .close { msg0 with seq := 2 ^ 32 }, .nonceExpiry 2, .entdaa 128 true,
      .setEndpointId 256, .d2dPortFailure 3, .modResetNAssert 750, .pfBar2DebugWindowAccess 0 0 none,
      .remoteRequest ⟨0, 0, .read, 2 ^ 48, 4, [], 0, false, 0, []⟩] : List Instr).all (fun i => !i.wellFormed) = true :=
  ⟨by decide, by decide, by decide +kernel⟩

/-! ### Hypotheses of the statements -/

theorem witness_StepRunsTheFront : State.reset.pending = [] := rfl

theorem witness_StepKeepsManaged : State.reset.managed = true ∧ ∃ t, step State.reset = .next t := ⟨by decide, _, rfl⟩

def id0 : Identity := ⟨5, 0, 1, 1, 1, 1⟩
def training0 : Link := { Link.init with st := .training, width := 1, released := some id0 }
def degraded0 : State :=
  { booted with mg := { booted.mg with boot := { booted.mg.boot with st := .degraded } }, fb := booted.fb.setLink 0 training0 }

theorem witness_ReadyNeverSafe :
    booted.mg.boot.st.isReady = true ∧ (∃ t, step booted = .next t) ∧
    degraded0.awake = true ∧ degraded0.mg.boot.st = .degraded ∧ degraded0.mg.boot.phase = 6 ∧ (degraded0.fb.link 0).st = .training ∧
    (degraded0.fb.link 0).width ≠ 0 ∧ identityMatches degraded0.fb 0 id0 = true :=
  ⟨by decide, ⟨_, rfl⟩, by decide, by decide, by decide, by decide, by decide, by decide⟩

theorem witness_Isolation : ofDataPlane (.evSignal 0 5) = true ∧ ∃ t, exec (.evSignal 0 5) booted = .next t := ⟨rfl, _, rfl⟩

def fatal0 : State := onDp (fun d => { d with fatal := true })
def draining0 (st : PState) (x : Drain) : State := onDp (fun d => d.setPart 3 { Part.init with st := st, drain := some x, tiles := [1] })

theorem witness_ModuleFatal :
    fatal0.dp.fatal = true ∧ ofHub (.linkDisable 0) = true ∧ booted.awake = true ∧
    ((draining0 .draining ⟨true, true, [4], [], []⟩).dp.part 3).drain.map (·.unconfirmed) = some [4] := by decide

theorem witness_FatalLastsUntilReset : fatal0.dp.fatal = true ∧ ∃ t, step fatal0 = .next t := ⟨rfl, _, rfl⟩

theorem witness_ReadAfterWrite : MemSys.reset.wf = true ∧ (1 : Reg) ≠ 0 ∧ (2 : Reg) ≠ 1 := by decide

def atomic0 : AtomicArgs := ⟨.tile 0 0, true, .die, .relaxed, 1, 2, 3⟩

theorem witness_CoreFrame :
    (∃ t, exec (.alu (.tile 0 0) .add false 1 2 3) (coreState 1) = .next t) ∧
    (∃ t, exec (.store (.tile 0 0) 8 1 0x030000000000) (coreState 5) = .next t) ∧
    coreLocate booted.fb.cfg (.tile 0 0) 0x030000000000 = .dev 0x030000000000 ∧
    atomicOp (.atomicAdd atomic0) = some (2, atomic0) ∧ (∃ t, exec (.atomicAdd atomic0) (coreState 8) = .next t) :=
  ⟨⟨_, rfl⟩, ⟨_, rfl⟩, by decide, rfl, ⟨_, rfl⟩⟩

theorem witness_HostRegisterFrame :
    (∃ t, exec (.qdbCqhead 0 0 1) booted = .next t) ∧ (∃ t, exec (.evSignal 0 1) booted = .next t) ∧
    (∃ t, exec (.evErrClear 0 1 0x80000000) booted = .next t) ∧ ∃ t, exec (.registerWrite .bar0 0 0x5004 4 1) booted = .next t :=
  ⟨⟨_, rfl⟩, ⟨_, rfl⟩, ⟨_, rfl⟩, ⟨_, rfl⟩⟩

/-- Division corners of R180 have no stated result; −7 / −2 does, 7 / −2 does not. -/
theorem witness_CoreArithmetic :
    AtWord (coreWord 0x04221800 []) (.tile 0 0) (isAlu 1 2 3) ∧ AtWord (coreWord 0x0822FFFF []) (.tile 0 0) (isRegImmediate 2 1 2 0xFFFF) ∧
    AtWord (coreWord 0x0C208000 []) (.tile 0 0) (fun w => isImmediate 3 0x8000 w && writesReg 3 1 w) ∧
    AtWord (coreWord 0x28221800 []) (.tile 0 0) (fun w => isMajor 10 w && regFields 1 2 3 w) ∧
    aluSpec 64 .add 0xFFFFFFFFFFFFFFFF 1 = some 0 ∧ aluSpec 32 .div 5 0 = none ∧
    aluSpec 32 .div (-8) (-2) = some 4 ∧ aluSpec 32 .sra 0x80000000 33 = some 0xC0000000 :=
  ⟨at_spelled (by decide) (by decide), at_spelled (by decide) (by decide), at_spelled (by decide) (by decide),
    at_spelled (by decide) (by decide), by decide, by decide, by decide, by decide⟩

theorem witness_CoreControlFlow :
    AtWord (coreWord 0x18229FFE []) (.tile 0 0) (isBranch 4 1 2 (-2)) ∧ AtWord (coreWord 0x1C200000 []) (.tile 0 0) (writesReg 7 1) ∧
    AtWord (coreWord 0x1C220000 []) (.tile 0 0) (fun w => writesReg 7 1 w && bits w 20 16 = (2 : Reg).val) ∧
    AtWord (coreWord 0x4C200000 []) (.tile 0 0) (writesReg 0x13 1) ∧
    branchSpec 0 1 1 = some true ∧ branchSpec 2 (-1) 0 = some true ∧ branchSpec 4 (-1) 0 = some false ∧ branchSpec 6 0 0 = none :=
  ⟨at_spelled (by decide) (by decide), at_spelled (by decide) (by decide), at_spelled (by decide) (by decide),
    at_spelled (by decide) (by decide), by decide, by decide, by decide, by decide⟩

def torus : FabCfg := { FabCfg.init with valid := true, dx := 4, dy := 4, dz := 4 }

/-- Each place that an address of a core leads to: private memory, its data, control registers, device memory, another module. -/
theorem witness_CoreAccesses :
    AtWord (coreWord 0x10220700 []) (.tile 0 0) (isLoad 8 true false 1) ∧
    AtWord (coreWord 0x10220600 []) (.tile 0 0) (isLoad 8 false false 1) ∧
    AtWord (coreWord 0x14000000 []) (.tile 0 0) (isMajor 5) ∧ accessWidthOk 8 = true ∧
    coreLocate torus (.tile 0 0) privBase = .fixed 0 ∧ coreLocate torus (.tile 0 0) (privBase + 0x10100) = .data 0x10100 ∧
    coreLocate torus (.tile 0 0) (privBase + 0x20000) = .ctl 0 ∧ coreLocate torus (.tile 0 0) (privBase + 0x10000000) = .dev (tileBase 0) ∧
    coreLocate torus (.tile 0 0) (2 ^ 63 + 2 ^ 48) = .remote 1 0 ∧
    coreCheck (coreState 4).dp (.tile 0 0) .read (tileBase 0) (tileBase 0) 8 = none ∧
    coreCheck (coreState 5).dp (.tile 0 0) .write (tileBase 0) (tileBase 0 + 0x27FFF8) 8 = none ∧
    (coreState 4).dp.tooNarrow (coreAgent (.tile 0 0)) (tileBase 0) 8 = [] ∧
    poisonedAt (coreState 4).dp.mem (tileBase 0) 8 = none ∧ cachedPoison (coreState 4).dp ((coreState 4).dp.tile 0) (tileBase 0) 8 = none :=
  ⟨at_spelled (by decide) (by decide), at_spelled (by decide) (by decide), at_spelled (by decide) (by decide), by decide, by decide, by decide, by decide, by decide, by decide, by decide, by decide,
    by decide, by decide, by decide⟩

theorem witness_CoreAtomics :
    AtWord (coreWord 0x20221C14 [(2, 0x030000000000)]) (.tile 0 0) (isAtomic 1 atomic0) ∧
    AtWord (coreWord 0x2400000D []) (.tile 0 0) (isFence 1 .system) ∧ AtWord (coreWord 0x2400000E []) (.tile 0 0) (isFence 2 .system) ∧
    AtWord (coreWord 0x2400000F []) (.tile 0 0) (isFence 3 .system) ∧ atomicOp (.atomicCas atomic0) = some (1, atomic0) ∧
    atomicWidthOk 1 true = true ∧ atomicSpec 8 0x06 0x7F 0x80 0 = some 0x80 ∧ atomicSpec 8 0x08 0x7F 0x80 0 = some 0x7F ∧
    (orderReleases MemOrder.release && releaseWaits (coreState 8).dp (.tile 0 0) .system) = false ∧
    coreCheck (coreState 8).dp (.tile 0 0) .atomic (tileBase 0) (tileBase 0) 8 = none ∧
    poisonedAt (coreState 8).dp.mem (tileBase 0) 8 = none ∧ (coreState 8).dp.tooNarrow (coreAgent (.tile 0 0)) (tileBase 0) 8 = [] :=
  ⟨at_spelled (by decide) (by decide), at_spelled (by decide) (by decide), at_spelled (by decide) (by decide),
    at_spelled (by decide) (by decide), rfl, by decide, by decide, by decide, by decide, by decide, by decide, by decide⟩

/-- A core of stream 2 about to issue a FLUSH whose descriptor it holds, and one that waits for a place or an event. -/
def waiting (st : CoreStatus) : State := tileWith { atMajor 0x10 with st := st } id

theorem witness_CoreEngines :
    (let s := coreWord 0x40200038 [(1, BitVec.ofNat 64 (privBase + 0x10100))]
     AtWord s (.tile 0 0) (isIssue 1 0 0 7 0) ∧ issueEngine 0 0 = some 0 ∧ descSize 0 7 = some 32 ∧
     issueBytes s.fb.cfg s.dp 0 0 ((s.dp.core (.tile 0 0)).reg 1).toNat 32 = some (.data 0x10100, List.replicate 32 0) ∧
     tokWordOk ((s.dp.core (.tile 0 0)).reg 0).toNat = true ∧ descOk 0 7 (List.replicate 32 0) = true) ∧
    issueEngine 7 1 = some 8 ∧ (issueBytes booted.fb.cfg (coreState 0x10).dp 0 2 (tileBase 0) 16).isSome = true ∧
    (let s := tileWith { atMajor 0 with mem := writeBytes [] 0 (leBytes 4 0x40200038), st := .issueStall 0,
                                        regs := [(1, BitVec.ofNat 64 (privBase + 0x10100))] } id
     s.env.serving = true ∧ ((s.dp.tile 0).core 0).st = .issueStall 0 ∧ ((s.dp.tile 0).engine 0).queue.length < 16 ∧
     issueBytes s.fb.cfg s.dp 0 0 ((s.dp.core (.tile 0 0)).reg (regOf (bits (fetchWord (s.dp.core (.tile 0 0))) 25 21))).toNat 32 =
       some (.data 0x10100, List.replicate 32 0)) ∧
    issueBytes booted.fb.cfg (coreState 0x10).dp 0 0 0 32 = none ∧ coreActive (waiting (.evWait 0 3)).dp (.tile 0 0) = true ∧
    AtWord (coreWord 0x44000000 []) (.tile 0 0) (isMajor 0x11) ∧ AtWord (coreWord 0x48000000 []) (.tile 0 0) (isMajor 0x12) ∧
    eventAddr ((coreState 0x12).dp.tile 0) 63 = some 0x0200000000FC ∧ poisonedAt (coreState 0x12).dp.mem 0x0200000000FC 4 = none :=
  ⟨⟨at_spelled (by decide) (by decide), by decide, by decide, by decide, by decide, by decide⟩, by decide, by decide, by decide, by decide,
    by decide, at_spelled (by decide) (by decide), at_spelled (by decide) (by decide), by decide, by decide⟩

/-- Block 1 of 2 is left to a core of rank 1, and none beyond. -/
theorem witness_CoreSystem :
    AtWord (coreWord 0x4C000000 []) (.tile 0 0) (writesReg 0x13 0) ∧ ((coreState 0x13).dp.tile 0).launch = some tileLaunch0 ∧ 0 + 0 * 1 < 2 * 1 * 1 ∧
    coreActive (coreState 0x13).dp (.tile 0 0) = true ∧ ((coreState 0x13).dp.core (.tile 0 0)).st.live = true ∧
    wdogLimit (coreState 0x13).dp (.tile 0 0) = 10 ∧ ((coreState 0x13).dp.tile 0).fault = none ∧
    coreOf (.exit (.tile 0 0)) = some (.tile 0 0) ∧ wordDefined (.tile 0 0) (fetchWord ((coreState 0).dp.core (.tile 0 0))) = false :=
  ⟨at_spelled (by decide) (by decide), by decide, by decide, by decide, by decide, by decide, by decide, by decide, by decide⟩

/-- Engine heads: a conversion that passes its checks, a flush, and a MATMUL, an adaptation and a copy that do not. -/
theorem witness_EngineInstructions :
    (∃ h, AtHead floorBlock 0 2 h [] ∧ h.op = 1 ∧ (convert 0 (floorBlock.taken 0 2 []) h).isOk = true) ∧
    (let h := entry 2 ([0, 2] ++ leBytes 6 0 ++ leBytes 8 (tileBase 0))
     AtHead (headState 2 h) 0 2 h [] ∧ (flush booted.env 0 ((headState 2 h).taken 0 2 []) h).isOk = true) ∧
    (AtHead (headState 1 (entry 1 [])) 0 1 (entry 1 []) [] ∧
      (matmul booted.env 0 ((headState 1 (entry 1 [])).taken 0 1 []) (entry 1 [])).isOk = false) ∧
    (AtHead (headState 2 (entry 3 [])) 0 2 (entry 3 []) [] ∧
      (adapt 0 ((headState 2 (entry 3 [])).taken 0 2 []) (entry 3 [])).isOk = false) ∧
    (AtHead (headState 0 (entry 7 [])) 0 0 (entry 7 []) [] ∧ regionOp (.kvFree 0) = some (0, 7) ∧
      lockWords (headState 0 (entry 7 [])).dp 0 (entry 7 []) = [] ∧
      (regionStart booted.env 0 ((headState 0 (entry 7 [])).taken 0 0 []) (entry 7 [])).isOk = false) ∧
    (let h := entry 1 (leBytes 8 (tileBase 0) ++ leBytes 8 (tileBase 0 + 64) ++ leBytes 4 16 ++ leBytes 4 1 ++ leBytes 8 0 ++
        leBytes 2 1 ++ leBytes 30 0)
     AtHead (headState 7 h) 0 7 h [] ∧ (copy booted.env 0 0 ((headState 7 h).taken 0 7 []) h).isOk = true ∧
     copyReads ⟨h, [], 0, [], false, 0, [], []⟩ = true ∧ ((headState 7 h).dp.tile 0).phase = .running ∧ ((headState 7 h).dp.tile 0).fault = none) :=
  ⟨⟨_, ⟨rfl, rfl, rfl, rfl, rfl, rfl⟩, rfl, by decide +kernel⟩, ⟨at_head _ _ rfl, by decide⟩, ⟨at_head _ _ rfl, by decide⟩,
    ⟨at_head _ _ rfl, by decide⟩, ⟨at_head _ _ rfl, by decide, by decide, by decide⟩, ⟨at_head _ _ rfl, by decide, by decide, by decide⟩⟩

def pool0 : KvPool := ⟨0, 0x1000, 0x100000, 0, false, 4, 0x2000, 0x3000, 0, [(2, [])], false⟩

theorem witness_KvPageRelease :
    SMap.get none (onDp (fun d => { d with pools := [(1, some pool0)] })).dp.pools 1 = some pool0 ∧
    (pool0.pending.find? (pageDue booted.dp)).isSome = true := by decide

theorem witness_StatisticsMerge : SkimSlot.init.amax < 2 ^ 32 ∧ (0xFFFFFFFF : Nat) < 2 ^ 32 := by decide

def table0 : SfuTable := ⟨2, 0, 0, 0, 0, 0, 0, [], []⟩
def swapState : State := tileWith (atMajor 1) (fun x => { x with tables := [(0, ⟨none, some table0⟩)] })

theorem witness_VectorUnit :
    (AtHead (headState 6 (entry 1 [0x20])) 0 6 (entry 1 [0x20]) [] ∧ fld (entry 1 [0x20]).desc 0 1 = 0x20 ∧
      vectorOp (.int32Add 0 3) = some (0, 3, 0x20, false, eachElem (intOp (fun a b => a + b)))) ∧
    (AtHead (headState 3 (entry 1 [0x40])) 0 3 (entry 1 [0x40]) [] ∧ (userSlot 0).isNone = true) ∧
    AtHead (headState 4 (entry 2 [])) 0 4 (entry 2 []) [] ∧ AtHead (headState 5 (entry 3 [])) 0 5 (entry 3 []) [] ∧
    AtHead (headState 6 (entry 4 [])) 0 6 (entry 4 []) [] ∧
    (SMap.get TableSlot.init (swapState.dp.tile 0).tables 0).shadow = some table0 ∧ slotInUse (swapState.dp.tile 0) 0 = false :=
  ⟨⟨at_head _ _ rfl, by decide, rfl⟩, ⟨at_head _ _ rfl, by decide⟩, at_head _ _ rfl, at_head _ _ rfl, at_head _ _ rfl, by decide, by decide⟩

/-- An ADAPT of a record with HWIN 1 and an E8M0 scale 1. -/
def adaptEntry : QEntry := entry 3 ([6, 0] ++ leBytes 6 0 ++ leBytes 8 (tileBase 0))
def adaptState : State :=
  let s := headState 2 adaptEntry
  s.setDp { s.dp with mem := s.dp.mem.write (tileBase 0) (leBytes 4 0x4000 ++ leBytes 4 0x07F00000) }

theorem witness_EngineFrame : (adapt 0 adaptState.dp adaptEntry).isOk = true := by decide

def running0 : Running := ⟨entry 1 [], [], 0, [], false, 0, [], []⟩
def faultRec0 : FaultRec := ⟨stShapeInvalid, 1, 0, 0, 0, 0⟩

theorem witness_TileCompletion :
    (let s := tileWith (atMajor 1) (fun x => { x with engines := [(8, { Engine.init with run := some running0 })] })
     ((s.dp.tile 0).engine 8).run = some running0 ∧ ((s.dp.tile 0).engine 8).stopping = false) ∧
    ({ Tile.init with tokens := [(0, 254)] } : Tile).token 0 < 255 ∧ 255 ≤ ({ Tile.init with tokens := [(0, 255)] } : Tile).token 0 ∧
    (let s := tileWith Core.init (fun x => { x with phase := .stopped, fault := some faultRec0 })
     (s.dp.tile 0).fault = some faultRec0 ∧ (s.dp.tile 0).reported = false ∧ (s.dp.tile 0).launch = some tileLaunch0) ∧
    (let s := onDp (fun d => d.setTile 0 { Tile.init with phase := .running, launch := some tileLaunch0 })
     (∀ c, c < 8 → ((s.dp.tile 0).core c).ended = true) ∧ (s.dp.tile 0).quiet = true ∧ tileWritesOut s.dp 0 = false) ∧
    (let s := onDp (fun d => { d with combine := [(10, [⟨5, 1, 2, 2⟩])] })
     (s.dp.slots 10).find? (fun c => c.q = 5 && c.seq = 1) = some ⟨5, 1, 2, 2⟩ ∧ treeParent 10 = none ∧ treeParent 9 = some 10) := by decide +kernel

theorem witness_AuditsFillsScrubs :
    (let b : PatchBlock := ⟨0, 0, 0, List.replicate 160 0, 0, [], [], []⟩
     let s := tileWith (atMajor 1) (fun x => { x with
       patchBlocks := [b], engines := [(1, { Engine.init with run := some running0 })], fills := [⟨3, [], true⟩] })
     (s.dp.tile 0).patchBlocks = [b] ∧ ((s.dp.tile 0).engine 1).run = some running0 ∧ (patchOperands s.dp 0 b).isOk = true ∧
     patchRecords 0 0 [] = [] ∧ (s.dp.tile 0).fills = [⟨3, [], true⟩]) ∧
    (let s := tileWith (atMajor 1) (fun x => { x with cache := [⟨5, List.replicate 128 0⟩] })
     (cacheFind (s.dp.tile 0) 5).isSome = true ∧ poisonedAt s.dp.mem (128 * 5) 128 = none ∧
     (s.dp.tile 0).fills.any (fun f => f.line = 5 && !f.dropped) = false) ∧
    booted.awake = true ∧ (0xFFFFFFFFFF : Nat) < 0x10000000000 ∧ backed booted.dp 0xFFFFFFFFFF = true ∧
    windowOf (tileBase 167) = .tile 167 ∧ backed booted.dp (tileBase 167) = true := by decide

/-- Partition 0 READY with queue 5 and tile 0, every right on HBM, and a block of memory. -/
def owned (f : DataPlane → DataPlane) : State :=
  onDp (fun d => f { d with
    mem := { d.mem with acl := [(aclKey 0 0 0, ⟨true, true, true, true, 0, 0xFFFFFFF⟩)] }
    parts := [(0, { Part.init with st := .ready, queues := [5], tiles := [0], msix := 8 })] })

def withMem (a : Nat) (bs : List Byte) (d : DataPlane) : DataPlane := { d with mem := d.mem.write a bs }

/-- A pool of one page whose descriptor is at 0x1000: KV_POOL_INIT is carried out, and fails without a descriptor. -/
theorem witness_TileCompletion_region :
    (let s := owned (fun d => withMem 0x1000 (leBytes 8 0x100000 ++ leBytes 4 0 ++ leBytes 4 1 ++ leBytes 8 0x2000 ++ leBytes 8 0x3000)
       { d.setTile 0 { Tile.init with phase := .running, launch := some tileLaunch0 } with
         parts := [(0, { Part.init with st := .ready, queues := [5], tiles := [0], kvpools := 1 })] })
     let run := fun (a : Nat) => regionFinish s.env 0 allSequences s.dp ⟨entry 1 (leBytes 8 a ++ leBytes 8 0x4000), [], 0, [], false, 0, [], []⟩
     (run 0x1000).2 = none ∧ (run 0x5000).2.isSome = true ∧ (regionStart s.env 0 s.dp (entry 1 (leBytes 8 0x1000 ++ leBytes 8 0x4000))).isOk = true) := by
  decide +kernel

def queue0 : Queue := { Queue.init with st := .active, ring := 0x2000, cring := 0x3000, rsize := 4, csize := 4, tail := 16, tailSeen := 16 }

def launch0 : Launch :=
  { q := 5, seq := 1, part := 0, type := .hub, prio := 0, timed := false, indctl := false, irq := false, overlap := false, group := 1,
    gx := 1, gy := 1, gz := 1, program := 0, indirect := 0, notBefore := 0, waits := [], signals := [], const := leBytes 160 0,
    handles := [], addrs := [], evBlock := 0, wdogMs := 10, build := 0, sects := [], crc := 0, tiles := [], expect := [2],
    tokens := [], stage := .engine, start := none, late := false, packBad := false, skip := false, fault := none, aborting := false, waited := false }

theorem witness_QueueLife :
    (let s := owned (withMem 0x1000 (leBytes 26 0 ++ [4, 4]) ∘ fun d => (d.setRegWord 0 0x4004 0x1000).setQueue 6 queue0)
     fnExists s.dp 0 = true ∧ fnOwns s.dp 0 5 = true ∧ fnOwns s.dp 0 6 = false ∧ (s.dp.queue 5).st = .disabled ∧
     (s.dp.queue 6).st = .active ∧
     (match hubRead s.env s.dp 0 (qcmdArg s.dp 0).1 (qcmdArg s.dp 0).2 64 with
       | .ok b => queueDescOk 8 b && !queueDescOk 0 b
       | .error _ => false) = true) ∧
    (let s := owned (fun d => { d.setQueue 5 { queue0 with st := .aborting } with launches := [{ launch0 with stage := .counted }] })
     (s.dp.queue 5).st = .aborting ∧ (s.dp.ofQueue 5).all (settled s.dp) = true) ∧
    (let s := owned (fun d => d.setQueue 5 { queue0 with st := .closing })
     (s.dp.queue 5).st = .closing ∧ s.dp.ofQueue 5 = []) ∧
    (let s := owned (fun d => { d.setQueue 5 { queue0 with st := .closing } with launches := [launch0] })
     settled s.dp launch0 = false ∧ (s.dp.part 0).st = .ready) := by decide

/-- A tail at the ring's size is taken; one beyond it overruns. -/
theorem witness_Doorbells :
    (let s := owned (fun d => d.setQueue 5 queue0)
     fnOwns s.dp 0 5 = true ∧ span32 16 (s.dp.queue 5).head ≤ 2 ^ (s.dp.queue 5).rsize ∧
     2 ^ (s.dp.queue 5).rsize < span32 17 (s.dp.queue 5).head) ∧ (0x80000000 : U32).toNat.testBit 31 = true := by decide

theorem witness_Records :
    (let s := owned (withMem 0x2000 [2] ∘ fun d => d.setQueue 5 queue0)
     let x := (s.dp.queue 5).takeRung
     x.head ≠ x.tailSeen ∧ windowFree s.dp 5 = true ∧ cringSpace (s.dp.setQueue 5 x) 5 = true ∧
     (match hubRead s.env s.dp x.fn x.rhost (x.ring + 256 * (x.head % 2 ^ x.rsize)) 256 with
       | .ok b => (fetchCheck s.env b (launchOf s.dp 5 x.nextSeq b)).isNone
       | .error _ => false) = true) ∧
    (let s := onDp (fun d => d.setQueue 5 queue0)
     (hubRead s.env s.dp 0 false 0x2000 256).isOk = false) ∧
    (let l := { launch0 with type := .marker, stage := .fetched }
     let s := owned (fun d => { d with launches := [l] })
     s.dp.launch 5 1 = some l ∧ l.waitsMet s.dp.events = true ∧ (waitsCheck s.env s.dp l).isOk = true ∧
     (waitsCheck s.env s.dp { l with handles := [1] }).isOk = false) ∧
    (let l := { launch0 with type := .marker, stage := .ready }
     let s := owned (fun d => { d with launches := [l] })
     firstChoice s.env s.dp = some l) ∧
    (let l := { launch0 with stage := .ready }
     let s := owned (fun d => { d with launches := [l] })
     firstHub s.env s.dp = some l) ∧
    (let l := { launch0 with type := .launch, timed := true, stage := .ready, notBefore := 100000 }
     let s := owned (fun d => { d.setQueue 5 { queue0 with stageLead := 100 } with launches := [l] })
     l.notBefore ≤ s.fb.plumb.ns + (s.dp.queue 5).stageLead * 1000) := by decide +kernel

theorem witness_DispatchedLaunch :
    [0, 1].Nodup ∧
    (let s := tileWith Core.init (fun x => { x with phase := .entering, tag := some (0x80, 7) })
     (s.dp.tile 0).tag = some (tileLaunch0.program, tileLaunch0.build) ∧ (s.dp.tile 0).phase = .entering) ∧
    (let s := tileWith Core.init (fun x => { x with phase := .needProgram })
     (s.dp.tile 0).tag ≠ some (tileLaunch0.program, tileLaunch0.build) ∧
     (readSections s.env s.dp tileLaunch0 tileLaunch0.sects).isOk = true ∧ crc32 [] = tileLaunch0.crc ∧ crc32 [1] ≠ 0 ∧
     ∀ n, n < 84 → (s.dp.tile n).phase ≠ .entering) ∧
    (let s := tileWith { Core.init with st := .armed } id
     ((s.dp.tile 0).core 0).st = .armed ∧ tileLaunch0.startAt.getD 0 ≤ s.fb.plumb.ns) := by decide +kernel

theorem witness_Collection :
    (let s := owned (fun d => { d with collector := [(5, 1, 2)], collected := [(7, 5, 1)], launches := [{ launch0 with stage := .counted }] })
     (5, 1, 2) ∈ s.dp.collector.take 512 ∧ s.dp.launch 5 1 = some { launch0 with stage := .counted } ∧
     collectable s.dp { launch0 with stage := .counted } = true ∧ leftToAbort s.dp { launch0 with stage := .counted } = false ∧
     collectedNext s.dp { launch0 with stage := .counted } = true) := by decide +kernel

def remote0 (k : AccessKind) (tag : Nat) : RemoteReq := ⟨9, tag, k, 0x1000, 8, leBytes 8 3, 0, true, 0, []⟩
def core0Waits : RemoteOut := ⟨4, 7, 0x1000, .read, .core (.tile 0 0)⟩

theorem witness_RemoteAccesses :
    (let s := onDp (fun d => { d with
       mem := { d.mem with acl := [(aclKey remoteCls 0 0, ⟨true, true, true, true, 0, 0xFFFFFFF⟩)] },
       remoteIn := [(9, ⟨true, 5, [(5, 0, [])]⟩)] })
     let x := SMap.get RemoteSrc.init s.dp.remoteIn 9
     homeRefusal s.dp (remote0 .write 6) = none ∧ s.dp.tooNarrow none 0x1000 8 = [] ∧ poisonedAt s.dp.mem 0x1000 8 = none ∧ x.repeated 6 = false ∧ x.repeated 5 = true ∧
     x.record.find? (fun y => y.1 = 5) = some (5, 0, [])) ∧
    (homeRefusal booted.dp (remote0 .write 6)).isSome = true ∧ (SMap.get RemoteSrc.init booted.dp.remoteIn 9).repeated 6 = false ∧
    (let s := tileWith { atMajor 4 with st := .remoteWait 4 1 8 false false } id
     let d := { s.dp with remoteOut := [core0Waits] }
     d.remoteReq 7 4 = some core0Waits ∧ coreHeld d (.tile 0 0) = true ∧
     (d.core (.tile 0 0)).st = .remoteWait 4 1 8 false false) ∧
    (let d := (tileWith (atMajor 4) (fun x => { x with engines := [(2, { Engine.init with run := some running0 }), (7, { Engine.init with run := some running0 })] })).dp
     ((d.tile 0).engine (7 + 0)).run = some running0 ∧ ((d.tile 0).engine 2).run = some running0) := by decide +kernel

/-- A plan of one MSI-X vector at 0x1000 with empty tables at 0. -/
theorem witness_PartitionCommands :
    (let s := onDp (withMem 0x1038 [1] ∘ fun d => d.setRegWord 0 0x22004 0x1000)
     fnExists s.dp 0 = true ∧ (enableCheck s.dp 0).isOk = true ∧ (s.dp.part 0).st = .disabled) ∧
    (enableCheck booted.dp 0).isOk = false ∧ ((owned id).dp.part 0).st = .ready := by decide +kernel

theorem witness_FunctionResets :
    (let s := onDp (fun d => { d with vfEnable := true, numVfs := 3 })
     fnExists s.dp 3 = true ∧ fnExists s.dp 4 = false) ∧
    (let s := draining0 .draining ⟨false, false, [], [], []⟩
     (s.dp.part 3).st = .draining ∧ (s.dp.part 3).drain = some ⟨false, false, [], [], []⟩ ∧ s.dp.launches = []) ∧
    ((draining0 .scrubbing ⟨false, true, [], [], [(1, 1)]⟩).dp.part 3).st = .scrubbing := by decide

theorem witness_PerstIsNoReset :
    ({ booted with mg := { booted.mg with pins := { Pins.reset with perstN := true } } } : State).mg.pins.perstN = true := rfl

theorem witness_MeteringCommands :
    (let s := onDp (fun d => { d with meter := { Meter.reset with running := true, curEnd := 10000000000, closed := [⟨1, 0, []⟩] } })
     let m := s.dp.meter
     m.running = true ∧ m.curEnd ≤ (10000000000 : Nat) ∧ s.dp.meter.closed = ⟨1, 0, []⟩ :: [] ∧ s.dp.meter.buffer.length < 4096 ∧ s.mg.fuses.keysDestroyed = false) ∧
    barDecodes booted 0 0x24004 = true ∧ barDecodes booted 0 0x1008 = true := by decide +kernel

def src0 : SrcEntry := ⟨4, 24, 7, 0, leBytes 12 0 ++ [10, 0, 0, 1]⟩

theorem witness_Frames :
    (let s := onDp (fun d => d.setNet { d.net with srctab := [(0, src0), (33, { src0 with family := 6 })] })
     portAnswers s.dp 0 7 4 [10, 0, 0, 1] = true ∧ portAnswers s.dp 0 8 4 [10, 0, 0, 1] = false ∧
     portAnswers s.dp 1 7 6 src0.addr = true ∧ portAnswers s.dp 0 7 6 src0.addr = false) ∧ booted.awake = true := by decide

def qp0 (st : QpState) : Qp :=
  ⟨0, false, st, [], 0, 0, 14, 7, 7, 10, 0, none, none, 0, [], 1⟩

/-- A key table of one entry at 0x4000: bytes 0x8000 to 0x80FF, key 0, readable and writable. -/
def rdmaState : State :=
  owned (withMem 0x4000 (leBytes 8 0x8000 ++ leBytes 4 0x100 ++ [0, 7, 0, 0]) ∘ fun d =>
    ((d.setRegWord 0 0x4030 0x4000).setRegWord 0 0x4034 0x10000).setQp 3 (some (qp0 .rts)))

theorem witness_InboundRdma :
    rdmaState.dp.qp 3 = some (qp0 .rts) ∧ rdmaCheck rdmaState.env (rxArrive rdmaState.dp 3) 3 (qp0 .rts) 0 0x80F8 8 .write = none ∧
    (rdmaCheck rdmaState.env (rxArrive rdmaState.dp 3) 3 (qp0 .rts) 0 0x80F9 8 .write).isSome = true ∧
    rdmaCheck rdmaState.env (rxArrive rdmaState.dp 3) 3 (qp0 .rts) 0 0x8000 256 .read = none ∧
    poisonedAt rdmaState.dp.mem 0x8000 256 = none ∧ rdmaState.dp.service 0 = none := by
  have e : rdmaState.dp.qp 3 = some (qp0 .rts) := by decide
  simp only [rxArrive, e]
  split <;> decide

/-- A key of an NVMe READ of 4,096 bytes to 0x8000 admits a write up to its end. -/
theorem witness_InboundRdma_command :
    (let c : NvmeCmd := ⟨5, 1, 7, 2, 9, false, 0, 4096, 0x8000⟩
     let s := rdmaState.setDp { rdmaState.dp with net := { rdmaState.dp.net with nvmeCmds := [c], assocs := [(7, some ⟨0, 2, 3, 1000, 9, 0⟩)] } }
     commandKey s.dp 3 9 = some c ∧ s.dp.assoc c.ctl = some ⟨0, 2, 3, 1000, 9, 0⟩ ∧
     rdmaCheck s.env s.dp 3 (qp0 .rts) 9 0x8FF8 8 .write = none) := by decide

def qpDesc0 : List Byte := leBytes 2 3 ++ [0, 0, 1, 0, 0, 0] ++ leBytes 12 0 ++ [8, 7, 7, 0] ++ leBytes 40 0

theorem witness_QueuePairs :
    (let s := owned (withMem 0x1000 qpDesc0 ∘ fun d =>
       ((d.setRegWord 0 0x4014 0x1000).setRegWord 0 0x22300 4).setNet { d.net with srctab := [(0, src0)] })
     (match hubRead s.env s.dp 0 (qpArg s.dp 0).1 (qpArg s.dp 0).2 64 with
       | .ok b => qpDescOk b && qpNumber b = 3 && qpSrcOk s.dp 0 b && qpUsed s.dp 0 < qpQuota s.dp 0
       | .error _ => false) = true ∧ s.dp.qp 3 = none ∧ fld qpDesc0 4 1 = qpCode .reset + 1) ∧
    (let s := onDp (fun d => d.setQp 3 (some { qp0 .rts with cnpAt := some 0, cutAt := some 0 }))
     (s.dp.qp 3).map (·.sent) = some 1 ∧ 0 + 50000 ≤ 50000 ∧ 0 + 55000 ≤ 55000 ∧ (10 : Nat) < 20 * 2 ^ 0 ∧ 0 < (qp0 .rts).retriesLeft) := by
  decide

/-- A HUB record of a group and OP at its engine. -/
def hubRec (g op : Nat) : Launch := { launch0 with group := g, const := leBytes 160 op, addrs := [0x1000] }
def hubState (g op : Nat) (f : DataPlane → DataPlane) : State := owned (fun d => f { d with launches := [hubRec g op], hubQueue := [(5, 1)] })

theorem at_hub (g op : Nat) (hg : g ∈ [1, 2, 3, 4, 5]) (ho : op ∈ [1, 2, 3, 4, 5]) :
    AtHub (hubState g op id) 5 1 [g] (hubRec g op) op := by
  have : ∀ g ∈ [1, 2, 3, 4, 5], ∀ op ∈ [1, 2, 3, 4, 5], (hubState g op id).env.serving = true ∧
      hubHeld (hubState g op id).dp 5 1 [g] = some (hubRec g op) ∧ fld (hubRec g op).const 0 1 = op := by decide +kernel
  obtain ⟨a, b, c⟩ := this g hg op ho
  exact ⟨a, b, c⟩

def nvmeOp0 : NvmeOp := ⟨5, 1, 0, true, [7], 4096, 1, 0, 4096, 0x8000, none, 4096⟩
def nvmeCmd0 : NvmeCmd := ⟨5, 1, 7, 2, 0, true, 0, 4096, 0x8000⟩
def assoc0 : Assoc := ⟨0, 3, 3, 1000, 9, 0⟩

theorem witness_Storage :
    (let s := hubState 4 1 (withMem 0x1000 (leBytes 2 3 ++ leBytes 2 3 ++ leBytes 4 1000) ∘ fun d => d.setQp 3 (some (qp0 .rts)))
     hubHeld s.dp 5 1 [4, 5] = some (hubRec 4 1) ∧ assocCmdOk (hubRec 4 1).const = true ∧ (hubRec 4 1).addrs.headD 0 % 16 = 0 ∧
     (match fabRead s.env s.dp 0 0x1000 544 with
       | .ok b => zeros b 0x18 8 && fld b 4 4 = 1000 && nvmeQpOk s.dp 0 0 (fld b 0 2) && nvmeQpOk s.dp 0 0 (fld b 2 2)
       | .error _ => false) = true ∧ s.dp.assoc 0 = none ∧
     s.dp.net.nvmeOps.any (fun o => o.q = 5 && o.seq = 1) = false) ∧
    (let s := hubState 4 4 (fun d => d.setAssoc 0 (some assoc0))
     hubHeld s.dp 5 1 [4, 5] = some (hubRec 4 4) ∧ s.dp.assoc 0 = some assoc0 ∧ assoc0.aqp / 512 = (hubRec 4 4).group - 4) ∧
    hubHeld (hubState 5 2 id).dp 5 1 [4, 5] = some (hubRec 5 2) ∧ hubHeld (hubState 5 3 id).dp 5 1 [4, 5] = some (hubRec 5 3) ∧
    (let s := onDp (fun d => d.setNet { d.net with nvmeOps := [nvmeOp0], nvmeCmds := [nvmeCmd0] })
     findCmd s.dp 7 2 = some (nvmeCmd0, nvmeOp0)) := by decide +kernel

def service0 : Service := ⟨[1, 0, 5, 0] ++ leBytes 124 0, none, [], [], 1, none, false, []⟩
def step0 (r0 r1 : Nat) : ServeStep := ⟨[], [⟨0, 1, some 1, some r0, []⟩, ⟨1, 2, some 2, some r1, []⟩], true⟩

/-- A service descriptor at 0x1000 with one ring at 0x2000. -/
def serveState : State :=
  owned (withMem 0x1000 (leBytes 2 1 ++ [5, 1] ++ leBytes 4 16 ++ leBytes 2 1 ++ leBytes 2 128 ++ leBytes 4 0 ++ leBytes 8 0x2000 ++
      leBytes 16 0 ++ [1, 0]) ∘ withMem 0x2000 (leBytes 8 0 ++ [4, 4] ++ leBytes 2 3) ∘ fun d =>
    { (d.setRegWord 0 0x4024 0x1000).setQp 3 (some (qp0 .rts)) with pools := [(1, some pool0)] })

theorem witness_Services :
    (readService serveState.env serveState.dp 0).isOk = true ∧ serveState.dp.service 0 = none ∧
    (readService (owned id).env (owned id).dp 0).isOk = false ∧
    (let s := owned (fun d => d.setService 0 (some service0))
     s.dp.service 0 = some service0 ∧ service0.step = none ∧ service0.stopping = false) ∧
    ((owned (fun d => d.setQueue 5 queue0)).dp.queue (servicePart service0 2 1)).st = .active ∧
    (step0 0 0).complete = true ∧ setsErr ((step0 0 0).status 1) = false ∧ (step0 0 stShapeInvalid).complete = true ∧
    (step0 0 stShapeInvalid).status 0 = stSuccess ∧ setsErr ((step0 0 stShapeInvalid).status 1) = true ∧
    (step0 stKvPoolExhausted 0).status 0 = stKvPoolExhausted := by decide +kernel

/-- A table of one plain entry at 0x1000 and a row of two FP32 logits. -/
def sampleRec : Launch :=
  { launch0 with group := 3, const := leBytes 4 2 ++ leBytes 4 16 ++ leBytes 152 0, addrs := [0x1000, 0x2000, 0x3000, 0x4000, 0x5000] }
def sampleState : State :=
  owned (withMem 0x1000 (leBytes 2 1 ++ leBytes 2 0 ++ leBytes 4 1) ∘ withMem 0x1048 (leBytes 2 1) ∘
    withMem 0x2000 (leBytes 4 0x3F800000) ∘ fun d => { d with launches := [sampleRec], hubQueue := [(5, 1)] })

theorem witness_Sampling :
    hubHeld sampleState.dp 5 1 [3] = some sampleRec ∧ sampleCheck sampleRec.const = none ∧
    sampleCheck (leBytes 160 1) = some stShapeInvalid ∧
    (match readTable sampleState.dp 0 none 0x1000 with
      | .ok tb => match sampleEntries sampleState.env sampleState.dp sampleRec (sampleCmd sampleRec.const) tb.entries 0 0 with
        | .ok (out, _, _) => (hubWrite sampleState.env sampleState.dp 0 false 0x5000 out).isOk
        | .error _ => false
      | .error _ => false) = true ∧
    (f32 0x7FC00000).isNan = true ∧ (∀ v ∈ [0x3F800000, f32NegInf], (f32 v).isNan = false) ∧ (f32 0).isZero = true ∧
    0x3F800000 ≠ f32NegInf := by decide +kernel

theorem witness_LinkStates :
    (degraded0.fb.link 0).st = .training ∧ chooseWidth 0xFF00 = some (2, 1) ∧ chooseWidth 0x0001 = none ∧
    chooseWidth 0xFFFF = some (3, 0) ∧ identityMatches booted.fb 0 id0 = false ∧
    (let l := { Link.init with st := .quarantine, observed := some id0 }
     ((booted.fb.setLink 0 l).link 0).observed = some id0) ∧
    ({ booted.fb with cfg := { FabCfg.init with plan := [⟨true, 5, 0⟩] } } : Fabric).planned 0 = ⟨true, 5, 0⟩ := by decide

def flit0 (seq : Nat) : Flit := ⟨.idle, 0, false, seq, 0, 0, 0, 0, 0, true, true, false, false, false, List.replicate 240 0⟩
def up0 : Link := { Link.init with st := .up, retry := [flit0 7, flit0 8], owed := [(1, 100)] }

theorem witness_Flits :
    ((booted.fb.setLink 0 up0).link 0).carries = true ∧ up0.talks = true ∧ up0.rejecting = false ∧
    (flit0 0).seq = (up0.rxSeq + 1) % 4096 ∧ (flit0 1).seq ≠ (up0.rxSeq + 1) % 4096 ∧
    (afterAck up0.retry 7).length < up0.retry.length ∧ (afterAck up0.retry 6).length = up0.retry.length ∧
    8 ≤ { up0 with replays := 8 }.replays ∧ up0.replays < 8 ∧ up0.held = [] ∧ up0.creditBack = (1, 63) ∧ up0.retry.length < 1024 ∧
    up0.st = .up ∧ booted.mg.boot.st ≠ .safe ∧ Flit.receive [] = none ∧ (flit0 0).payload.length = 240 := by
  decide +kernel

/-- A flit as it comes in, a data flit among them; R31's weights let VC 2 go, and VC 0 before it. -/
theorem witness_Flits_bytes :
    Flit.receive (flit0 0).bytes = some (flit0 0) ∧
    (Flit.receive { flit0 0 with type := .data, vc := 2 }.bytes).map (·.type) = some .data ∧
    ({ up0 with held := [(0, { flit0 0 with vc := 2 })] }.arbiter 0x01010101).map (fun (x : Nat × Nat × Nat) => x.1) = some 2 ∧
    ({ up0 with held := [(0, { flit0 0 with vc := 2 }), (0, flit0 0)] }.arbiter 0x01010101).map (fun (x : Nat × Nat × Nat) => x.1) = some 0 := by
  decide +kernel

def ring4 : Fabric :=
  { Fabric.reset with cfg := { FabCfg.init with valid := true, dx := 4, plan := [⟨true, 1, 1⟩, ⟨true, 3, 0⟩], fmDep := 0, cm := 1, cmDep := 0 } }

theorem witness_RoutesAndManagers :
    ring4.cfg.size 0 = 4 ∧ coordOf ring4.cfg.id 0 = 0 ∧ (ring4.cfg.planOf (linkOf 0 false)).v = true ∧
    (ring4.cfg.planOf (linkOf 0 true)).v = true ∧ (1 + 4 - 0) % 4 < (0 + 4 - 1) % 4 ∧ (0 + 4 - 3) % 4 < (3 + 4 - 0) % 4 ∧
    managerId ring4.cfg .fabric = ring4.cfg.id ∧ sameCell 3 ring4.cfg.id = true ∧ { Manager.init with active := true }.active = true ∧
    (let f := { ring4 with cfg := { ring4.cfg with dx := 8, fm := 4096 } }
     managerId f.cfg .cell ≠ f.cfg.id ∧ deputyId f.cfg .cell = f.cfg.id ∧ (f.role .cell).active = false ∧ f.cellMgr.active = false) ∧
    (let f := { ring4 with cfg := { ring4.cfg with dx := 8, fm := 4096, cmDep := 2 }, cmAddr := 1 }
     managerId f.cfg .cell ≠ f.cfg.id ∧ deputyId f.cfg .cell ≠ f.cfg.id ∧ f.addr .cell ≠ deputyId f.cfg .cell ∧
     ({ f with cmAddr := 2 } : Fabric).addr .cell = deputyId f.cfg .cell ∧ f.orphan = false) := by decide

def atTime (ns : Nat) (s : State) : State := { s with fb := { s.fb with plumb := { s.fb.plumb with ns := ns, aligned := true } } }

def todMsg : List Byte :=
  let body := [1, 1] ++ leBytes 8 1700000000 ++ leBytes 2 0
  [0x55, 0xAA] ++ body ++ leBytes 2 (crc16 body)

theorem witness_PlumbTime :
    todSeconds todMsg = some 1700000000 ∧
    (let p := { Plumb.init with gm := true, tod := some 5 }
     p.gm = true ∧ p.aligned = false ∧ p.synced = false ∧ p.tod = some 5) ∧
    (let f := { booted.fb with cfg := { ring4.cfg with gm := 1, gmDep := 0, dy := 1, dz := 1 } }.setLink 0 { up0 with peer := some (3, true, 1) }
     (f.link 0).st = .up ∧ parentOf f = 0 ∧ parentOf (f.setLink 0 { f.link 0 with peer := some (3, true, 1), offset := some 208 }) = 0 ∧
     f.plumb.units + 208 < 2 ^ 70 ∧ f.plumb.gm = false ∧ f.plumb.parent = 7 ∧ f.cfg.gmDep = f.cfg.id) ∧
    (let p := { Plumb.init with source := .holdover, gm := false }
     p.source = .holdover ∧ p.units + 128 < 2 ^ 70) ∧ booted.awake = true := by decide +kernel

def timedLaunch : Launch := { launch0 with timed := true, notBefore := 1000000, type := .launch, tiles := [0] }
def shapeState : State :=
  onDp (fun d => { d.setRegWord 0 0x023024 1 with launches := [timedLaunch] })

theorem witness_PowerShapingAndHeat :
    (let s := shapeState
     shapeOn s.dp = true ∧ s.fb.plumb.ns < timedLaunch.notBefore ∧ 2000 < rampTarget s.fb.shape s.mg.sec.mode.pcap timedLaunch ∧
     timedLaunch.notBefore ≤ s.fb.plumb.ns + rampNs (rampTarget s.fb.shape s.mg.sec.mode.pcap timedLaunch - 2000) (shapeRise s.dp) ∧
     s.dp.launches.find? (fun l => l.q = 5 && l.seq = 1) = some timedLaunch) ∧
    (1000 : Nat) < min ({ booted.fb.shape with draw := 1200, filler := 300 } : Shape).level booted.mg.sec.mode.pcap ∧
    ({ booted.fb.shape with gliding := true } : Shape).gliding = true ∧ booted.mg.sec.mode.pcap < 3201 ∧
    ({ booted.fb.shape with ramp := some (0, 900, 100) } : Shape).ramp = some (0, 900, 100) ∧ 0 ≤ booted.fb.plumb.ns ∧
    booted.fb.shape.gliding = false ∧ alertLimit 4 = some 9500 ∧ throttleLimit 4 = some 10000 ∧ tripLimit 4 = some 11500 ∧
    (9500 : Int) < SMap.get 0 [(4, 9100)] 4 + 500 ∧ booted.mg.pins.pwrGood = true ∧
    (let p := { Pins.reset with thermTripN := true, pwrEn := false }
     p.thermTripN = true ∧ p.pwrEn = false) := by decide +kernel

/-- Groups 0 to 7 are the partition's. -/
def grouped (g op : Nat) (c : List Byte) (f : DataPlane → DataPlane) : State :=
  onDp (fun d => f { d with
    mem := { d.mem with acl := [(aclKey 0 0 0, ⟨true, true, true, true, 0, 0xFFFFFFF⟩)] }
    parts := [(0, { Part.init with st := .ready, queues := [5], tiles := [0], msix := 8, fgroups := 8 })]
    hubQueue := [(5, 1)]
    launches := [{ launch0 with group := g, const := leBytes 1 op ++ c ++ leBytes (159 - c.length) 0, addrs := [0x1000, 0x5000, 0x6000, 0x7000] }] })

def group0 (snap : Bool) : Group :=
  { part := 0, snap := snap, ndim := 1, dims := [3, 1, 1], rank := 0, chunk := 0, k := 2, m := 1, permitFeed := false,
    members := [0, 1, 2], collTo := 10000, slots := 0x100000, slotLen := 8192, ring := 0x200000, gdig := [1, 2, 3, 4], nextOp := 5,
    feedExposed := false, ready := true, feeds := [], createQ := 5, createSeq := 1 }

/-- A descriptor of group 3 with two members, 0 and 1, at 0x1000. -/
def createState : State :=
  let s := grouped 1 1 [] (withMem 0x1000 (leBytes 2 3 ++ [0, 1] ++ leBytes 2 2 ++ leBytes 2 1 ++ leBytes 2 1 ++ leBytes 2 0 ++ leBytes 4 0 ++
    leBytes 8 0x2000) ∘ withMem 0x2002 [1])
  { s with fb := { s.fb with cfg := { FabCfg.init with valid := true, dx := 4, dy := 4, dz := 4 } } }

theorem witness_FabricGroups :
    (let s := createState
     (match hubHeld s.dp 5 1 [1] with
      | some l => fld l.const 0 1 = 1 && zeros l.const 1 159 && !s.dp.coll.holds 5 1 && groupInRange s.dp l.part 3 && (s.dp.group 3).isNone &&
        (match fabRead s.env s.dp l.part 0x1000 64, fabRead s.env s.dp l.part 0x2000 4 with
         | .ok b, .ok bs => groupDescOk b && fld b 0 2 = 3 && fld b 0x10 8 = 0x2000 && descP b = 2 && membersOk s.fb.cfg 0 (membersOf bs 2)
         | _, _ => false)
      | none => false) = true) ∧
    (let s := onDp (fun d => d.setGroup 3 (some { group0 true with ready := false, feeds := [(0, 1)] }))
     (creating s.dp 3).isSome = true ∧ 1 ∈ (group0 true).members) ∧
    (let s := grouped 1 2 (leBytes 1 0 ++ leBytes 2 3) (fun d => d.setGroup 3 (some (group0 false)))
     (hubHeld s.dp 5 1 [1]).isSome = true ∧ groupOps s.dp 3 = [] ∧ (usableGroup s.dp 0 3 false).isSome = true) ∧
    (hubHeld (grouped 1 3 [] id).dp 5 1 [1]).isSome = true := by decide +kernel

/-- An ALL_REDUCE of group 3 with a given OPSEQ and REDOP. -/
def collConst (opseq redop : Nat) : List Byte := [1] ++ leBytes 2 3 ++ leBytes 4 opseq ++ [BitVec.ofNat 8 redop]
def collState (opseq redop : Nat) : State := grouped 1 4 (collConst opseq redop) (fun d => d.setGroup 3 (some (group0 false)))

theorem witness_Collectives :
    (∀ x ∈ [(4, 0), (5, 0), (6, 0), (5, 3)], let s := collState x.1 x.2
      (hubHeld s.dp 5 1 [1]).isSome = true ∧ s.dp.coll.holds 5 1 = false ∧ s.dp.collOp 3 = none ∧ s.env.serving = true ∧
      (usableGroup s.dp 0 3 false).isSome = true) ∧
    (usableGroup (grouped 1 4 (collConst 5 0) id).dp 0 3 false) = none ∧
    collectiveOp (.allReduce 5 1) = some (5, 1, 1) ∧
    (let a := fun (r : Nat) => ((collState 5 r).dp.launches.map (fun l => ((collArgs l.const).check (group0 false) l.const, (collArgs l.const).coll)))
     a 0 = [(none, 1)] ∧ a 3 = [(some stRecordInvalid, 1)]) := by decide +kernel

def collOp0 : CollOp :=
  { q := 5, seq := 1, part := 0, gnum := 3, coll := 1, opseq := 5, redop := 0, wfmt := 0, ofmt := 0, count := 64, root := 0, output := 0x5000,
    table := 0, opdig := [9], acc := [], starts := [], got := [], early := [], toSend := [],
    unacked := [(1, 0, 0, ⟨3, 0, 5, [1, 2, 3, 4], [9], 0, 0, true, 0, 0, []⟩)], lastRx := 0, truncated := false }

theorem witness_CollectiveMessages :
    (let s := atTime 20000000000 (onDp (fun d => (d.setGroup 3 (some (group0 false))).setCollOp collOp0))
     s.env.serving = true ∧ s.dp.group 3 = some (group0 false) ∧
     (onDp (fun d => { d.setGroup 3 (some (group0 false)) with coll := { (d.setGroup 3 (some (group0 false))).coll with ops := [collOp0] } })).dp.collOp 3 =
       some collOp0 ∧
     (group0 false).gdig ≠ [] ∧ 4 < collOp0.opseq ∧ 0 < (group0 false).members.length ∧ collOp0.opseq < 6 ∧
     (collOp0.unacked.find? (fun u => (group0 false).device u.1 = 1)).isSome = true ∧
     (∃ u ∈ collOp0.unacked, u.2.1 + 5000000 ≤ s.fb.plumb.ns) ∧
     collOp0.lastRx + (group0 false).collTo * 1000000 ≤ s.fb.plumb.ns ∧ s.fb.fabricMgr.active = false) := by decide +kernel

/-- A snapshot record of group 3 at step 7 with one region, 0x2000 to 0x203F; slot 0 holds a snapshot of step 7 with no data. -/
def snapConst (nlost : Nat) : List Byte :=
  leBytes 1 nlost ++ leBytes 2 3 ++ leBytes 2 1 ++ leBytes 2 0 ++ leBytes 8 7 ++ leBytes 4 0 ++ leBytes 4 64
def snapState (op nlost : Nat) : State :=
  grouped 2 op (snapConst nlost) (withMem 0x1000 (leBytes 8 0x2000 ++ leBytes 8 64) ∘ fun d => d.setGroup 3 (some (group0 true)))

theorem witness_Snapshots :
    (∀ x ∈ [(1, 0), (2, 0), (3, 0), (4, 1), (5, 0)], let s := snapState x.1 x.2
      (hubHeld s.dp 5 1 [2]).isSome = true ∧ s.dp.coll.holds 5 1 = false ∧ usableGroup s.dp 0 3 true = some (group0 true) ∧
      (s.dp.launches.all (fun l => (snapArgs l.const).op = x.1 && (snapArgs l.const).ok l.const && (snapArgs l.const).gnum = 3)) = true) ∧
    ((snapState 4 0).dp.launches.all (fun l => (snapArgs l.const).ok l.const)) = false ∧
    (let s := snapState 1 0
     (match (do
        let b ← fabRead s.env s.dp 0 0x1000 16
        let i ← chooseSlot s.env s.dp 3 (group0 true)
        let d ← setCommitted s.env s.dp (group0 true) i false
        let _ ← readRegions s.env d 0 (regionsOf b 1)
        pure (regionsOf b 1 = [(0x2000, 64)] && i = 0)) with
      | .ok b => b
      | .error _ => false) = true ∧ regionsTotal [(0x2000, 64)] + 4096 ≤ (group0 true).slotLen) ∧
    waitingNotice (snapState 2 0).dp 3 7 = none ∧
    (sendSlot (snapState 2 0).env (snapState 2 0).dp { launch0 with group := 2 } (snapArgs ([2] ++ snapConst 0)) (group0 true)).isOk = true ∧
    (let a := snapArgs ([4] ++ snapConst 1)
     a.lost = [0] ∧ a.nlost ≤ (group0 true).m ∧ distinct a.lost = true ∧
     sourcesComplete (group0 true) a.lost (sourcesOf 3 7 []) = false ∧
     (let slot := fun (r : Nat) => (r, SnapHdr.bytes ⟨3, r, 1, 7, 0, 0, [], [], []⟩)
      sourcesComplete (group0 true) a.lost (sourcesOf 3 7 [slot 1, slot 2]) = true)) ∧
    (let o : SnapOp := ⟨5, 1, 0, 3, 7, false, 0, [2], [], []⟩
     let g := { group0 true with rank := 2 }
     let s := onDp (fun d => { d.setGroup 3 (some g) with coll := { (d.setGroup 3 (some g)).coll with snaps := [o] } })
     s.dp.snapOp 3 = some o ∧ s.dp.group 3 = some g ∧ g.k ≤ g.rank ∧ (0 : Nat) < g.k ∧ 0 + 4096 ≤ g.slotLen ∧ o.streams.length + 1 < g.k ∧
     g.k + 0 ∈ o.awaiting ∧ o.awaiting.erase (g.k + 0) = [] ∧ [2, 3].erase (g.k + 0) ≠ [] ∧
     (setCommitted s.env (snapState 2 0).dp g 0 true).isOk = true) ∧
    (let o : SnapOp := ⟨5, 1, 0, 3, 7, true, 0, [1], [], []⟩
     let g := group0 true
     let s := onDp (fun d => { d.setGroup 3 (some g) with coll := { (d.setGroup 3 (some g)).coll with snaps := [o] } })
     s.env.serving = true ∧ s.dp.group 3 = some g ∧ g.snap = true ∧ g.ready = true ∧ s.dp.collOp 3 = none ∧
     (s.dp.coll.snaps.find? (fun o => o.record && o.gnum = 3)) = some o ∧
     o.awaiting.filter (fun r => g.device r ≠ 1) = [] ∧ 1 < g.members.length ∧ 1 ≠ g.rank ∧
     (fabWrite (snapState 3 0).env (snapState 3 0).dp 0 (g.ring + (1 * 16 + 0 % 16) * 4096) (List.replicate 4096 0)).isOk = true) := by decide +kernel

/-- RESTORE of a committed slot of no data, whose digest holds. -/
def restoreState : State :=
  let s := snapState 5 0
  s.setDp (withMem 0x1000 (leBytes 16 0) (withMem 0x1008 [0] (withMem 0x100000 ((SnapHdr.bytes ⟨3, 0, 1, 7, 0, 0, [], shake32 [], []⟩).take 0x60) s.dp)))

theorem witness_Snapshots_restore :
    (match slotOf restoreState.env restoreState.dp 3 (group0 true) 7 with
      | .ok (some (i, h)) => i = 0 && h.len = 0 && h.digest = shake32 []
      | _ => false) = true := by decide +kernel

theorem witness_ModuleLoss :
    (let f := { booted.fb with fabricMgr := { booted.fb.fabricMgr with active := true }, losses := [(0, 7)], cfg := { booted.fb.cfg with spares := [7, 9] } }
     f.fabricMgr.active = true ∧ (∃ l ∈ f.losses, f.plumb.ns < l.1 + 86400000000000 ∧ l.2 = 7) ∧
     (∀ l ∈ f.losses, f.plumb.ns < l.1 + 86400000000000 → l.2 ≠ 8) ∧
     f.cfg.spares.find? (fun x => x ≠ 7 && !f.spareUsed.contains x) = some 9) ∧
    booted.fb.fabricMgr.active = false ∧ booted.fb.cellMgr.active = false ∧
    (let f := { booted.fb with cfg := { booted.fb.cfg with plan := [⟨true, 5, 0⟩] } }.setLink 0 { Link.init with st := .down }
     linksLost f 5 = true ∧ linksLost f 6 = false) := by decide +kernel

theorem witness_HostAccess :
    booted.awake = true ∧ fnExists booted.dp 0 = true ∧
    (∀ o ∈ [0x501C, 0x6004, 0xA100, 0x5004, 0x4028], barDecodes booted 0 o = true) ∧ telemOffsets.contains 0x100 = true ∧
    booted.env.serving = true ∧ (1 : U32).toNat.testBit 0 = true ∧ booted.dp.vfEnable = false ∧ booted.dp.pcieDown = false ∧
    accessCheck (onDp (fun d => { d with mem := { d.mem with acl := [(aclKey 0 0 0, ⟨true, true, true, true, 0, 0xFFFFFFF⟩)] } })).dp 0 none .write
      0x1000 4 = none ∧
    (accessCheck booted.dp 0 none .write 0x1000 4).isSome = true ∧ poisonedAt booted.dp.mem 0x1000 4 = none := by decide +kernel

theorem witness_EngineAborts :
    (let s := owned (fun d => { d.setTile 0 { Tile.init with phase := .running, launch := some { tileLaunch0 with q := 5, seq := 1 } } with
       launches := [{ launch0 with aborting := true }] })
     (tileAborting s.dp 0).isSome = true ∧ s.env.serving = true) ∧
    (let s := tileWith (atMajor 1) (fun x => { x with engines := [(2, { Engine.init with run := some running0, stopping := true })] })
     ((s.dp.tile 0).engine 2).run = some running0 ∧ ((s.dp.tile 0).engine 2).stopping = true ∧
     running0.remote = 0 ∧ running0.todo = [] ∧ s.dp.narrow = []) ∧
    (let l := { launch0 with aborting := true }
     hubAborting (owned (fun d => { d with launches := [l] })).dp 1 .engine = [l]) ∧
    (let l := { launch0 with aborting := true, stage := .stopping }
     hubAborting (owned (fun d => { d with launches := [l] })).dp 1 .stopping = [l]) := by decide +kernel

theorem witness_PowerPins :
    (let p := { Pins.reset with pwrEn := false, switchOn := false, pwrGood := false }
     p.pwrEn = false ∧ p.thermTripN = false ∧ p.hold = false) ∧
    (let p := { Pins.reset with pwrGood := false }
     p.switchOn = true ∧ p.pwrGood = false ∧ p.pwrEn = true) ∧
    (let p := { Pins.reset with hold := true, heldEn := true }
     p.hold = true ∧ p.thermTripN = false ∧ p.heldEn = true ∧ p.pwrEn = true) ∧
    (43999 < 44000 ∧ 44000 ≤ Pins.reset.vinMv ∧ (62000 : Nat) < 62001) ∧
    (let p := { Pins.reset with vinMv := 45999, switchOn := false }
     p.vinMv < 46000 ∧ (p.pwrEn && !p.switchOn && !p.railFail && !p.thermTripN) = true ∧ p.hold = false ∧
     ({ p with railFail := true }.pwrEn && !{ p with railFail := true }.switchOn && !{ p with railFail := true }.railFail) = false) ∧
    (let p := { Pins.reset with hold := true, thermTripN := true, pwrEn := false }
     p.hold = true ∧ p.thermTripN = true ∧ (p.heldEn && p.pwrEn && !p.thermTripN) = false) ∧
    ({ Security.reset with resetDue := true } : Security).resetDue = true := by decide

theorem witness_ModResetPin :
    (500 : Nat) ≤ 500 ∧ (1000 : Nat) ≤ 1000 ∧ Pins.reset.pwrGood = true ∧ ({ Pins.reset with pwrGood := false } : Pins).pwrGood = false ∧
    ({ Pins.reset with modResetN := true } : Pins).modResetN = true := by
  decide

def inBringup (ph : Nat) (f : Boot → Boot) : State :=
  { booted with mg := { booted.mg with boot := f { Boot.init with st := .bringup, phase := ph } } }

def goodTraining : TrainingResults := ⟨true, none, none, [], [], []⟩

theorem witness_BringupPhases :
    (State.reset.mg.boot.st = .primer ∧ State.reset.mg.boot.phase = 0 ∧ State.reset.mg.pins.pwrGood = true ∧
      State.reset.mg.pins.modResetN = false) ∧
    (verifyImage State.reset.mg).isNone = true ∧ (inBringup 2 id).inPhase 2 = true ∧ goodTraining.d2dOk = true ∧
    goodTraining.hbmFail = none ∧ goodTraining.links.getD 0 none = none ∧
    (inBringup 3 id).inPhase 3 = true ∧
    (let b := (inBringup 3 id).mg.boot
     let f := booted.mg.fuses
     b.slices.getD 0 0 < sliceGoal f 0 ∧ b.slices.getD 2 0 < sliceGoal f 2 ∧ b.slices.getD (100 / 84) 0 < sliceGoal f (100 / 84) ∧
     f.badTiles.contains 100 = false ∧ b.hbmDone = false ∧
     ({ b with hbmDone := true, slices := [sliceGoal f 0, sliceGoal f 1, 2400] } : Boot).bistDone f = true ∧
     ({ b with hbmDone := true, slices := [sliceGoal f 0 - 1, sliceGoal f 1, 2400] } : Boot).bistDone f = false) ∧
    (inBringup 5 (fun b => { b with mapped := 1 })).inPhase 5 = true ∧ (inBringup 5 id).mg.boot.fwOk = false ∧
    (∀ x ∈ ([] : List Nat), (inBringup 5 id).dp.enabled x = false) ∧
    (inBringup 5 (fun b => { b with fwOk := true })).mg.boot.katDone = false := by decide +kernel

theorem witness_ThermalPauses :
    (let s := inBringup 3 id
     s.mg.boot.st = .bringup ∧ s.mg.boot.phase = 3 ∧ s.mg.boot.paused = false ∧ s.mg.boot.pausedMs ≤ 24000) ∧
    (let s := inBringup 5 (fun b => { b with paused := true, pausedMs := 23000 })
     s.mg.boot.phase = 5 ∧ s.mg.boot.paused = true ∧ s.mg.boot.pausedMs + 1000 ≤ 24000 ∧ 24000 < s.mg.boot.pausedMs + 1001) := by decide

def inState (st : BootSt) (f : State → State) : State := f { booted with mg := { booted.mg with boot := { booted.mg.boot with st := st } } }
def session0 (r : SesRole) : Session := ⟨1, 0, r, true, [7], 3⟩
def withSession (r : SesRole) (f : Fuses → Fuses) (s : State) : State :=
  { s with mg := { s.mg with sec := { s.mg.sec with sessions := [session0 r] }, fuses := f s.mg.fuses } }

theorem witness_BringupEnds :
    (let s := inBringup 5 (fun b => { b with mapped := 2 })
     s.inPhase 5 = true ∧ s.mg.boot.mapped = 2) ∧
    (let s := inState .safe (fun s => { s with mg := { s.mg with boot := { s.mg.boot with phase := 3 } } })
     s.mg.boot.st = .safe ∧ s.mg.boot.phase ≠ 6) ∧
    (inBringup 3 id).mg.boot.st = .bringup ∧ (inState .recovery id).mg.boot.st = .recovery ∧
    (let s := inState .recovery (withSession .service id)
     s.awake = true ∧ uploadSession s 0 = true ∧ uploadFree s 0 = true ∧ s.dp.regWord 0 0x021004 % 65536 = 0 ∧
     s.dp.regWord 0 0x021004 < imageMax ∧ verifyImage s.mg = none) ∧
    (uploadSession (inState .recovery id) 0 && uploadFree (inState .recovery id) 0) = false ∧
    (let s := inState .recovery (fun s => s.setDp (s.dp.setRegWord 0 0x021004 4))
     s.dp.regWord 0 0x021004 % 65536 ≠ 0) := by decide +kernel

def msg1 : Msg := ⟨0, 1, 4, []⟩

theorem in_session (r : SesRole) (f : Fuses → Fuses) : InSession (withSession r f booted) msg1 (session0 r) :=
  ⟨rfl, rfl, by decide, by decide, rfl, rfl, rfl⟩

/-- A key's hash among the service keys; the verification of its signature is Falcon-1024, whose value the model leaves open. -/
theorem witness_Sessions :
    booted.awake = true ∧ ifaceUp booted 0 = true ∧ ([] : List Byte).length ≤ 4032 ∧ ({ Fuses.init with lcs := .blank } : Fuses).lcs = .blank ∧
    booted.mg.fuses.lcs = .provisioned ∧ (List.replicate 32 (0 : Byte)).length = 32 ∧
    SMap.get none booted.mg.sec.nonces 0 = none ∧ booted.mg.sec.sessions.length < 4 ∧
    SMap.get (none : Option (List Byte × SesRole)) [(0, some ([5], .service))] 0 = some ([5], .service) ∧
    keyListed (withSession .owner id booted) .service (shake32 [1]) = false ∧
    keyListed (withSession .owner (fun f => { f with svcKeys := [shake32 [1]] }) booted) .service (shake32 [1]) = true := by decide +kernel

theorem witness_Sessions_close : ∃ s m y, InSession s m y := ⟨_, _, _, in_session .owner id⟩

theorem witness_SessionCommands :
    (∃ s, InSession s msg1 (session0 .service)) ∧
    (let s := withSession .service id { booted with mg := { booted.mg with
       regions := { booted.mg.regions with ucal := some ⟨0, 0, [], [], some ModeTab.init⟩ } } }
     let y := session0 .service
     ownerHeld s.mg y = false ∧ modeAllowed s.mg ⟨none, none, none, none, none, none, none, none, false⟩ y = false ∧
     flashLockFree s.mg.sec y.id = true ∧ uploadFree s 0 = true ∧ s.mg.sec.lock = none ∧
     calOk ⟨0, 0, [], [], none⟩ (storedMode s) = true ∧ calOk ⟨201, 0, [], [], none⟩ (storedMode s) = false) ∧
    (let s := withSession .operator id booted
     let chg : ModeChange := ⟨some 1, none, none, none, none, none, none, none, false⟩
     modeAllowed s.mg chg (session0 .operator) = true ∧ modeOk (s.mg.sec.mode.apply chg) = true ∧
     modeOk (s.mg.sec.mode.apply { chg with clock := some 3 }) = false ∧ chg.persist = false ∧ chg.ecc = none) ∧
    (let x := { (withSession .service id booted).mg.sec with lock := some 1 }
     x.lock = some (session0 .service).id ∧ flashLockFree { x with lock := some 2 } 1 = false) ∧
    ownerHeld (withSession .owner (fun f => { f with owners := [[7]] }) booted).mg (session0 .owner) = true ∧
    (2048 % 2048 = 0 ∧ 2048 + 2048 ≤ imageMax ∧ partNat (leBytes 8 2048 ++ List.replicate 2048 0) 0 8 = 2048) :=
  ⟨⟨_, in_session .service id⟩, by decide +kernel, by decide +kernel, by decide +kernel, by decide +kernel, by decide +kernel⟩

theorem witness_LifeCycle :
    (∀ x : LcState, ∃ s, InSession s msg1 (session0 .service) ∧ s.mg.fuses.lcs = x ∧ s.mg.fuses.returns = 3 ∧ (session0 .service).role = .service) ∧
    (let s := withSession .owner (fun f => { f with owners := [[7]] }) booted
     ownerHeld s.mg (session0 .owner) = true ∧ s.mg.fuses.lcs = .provisioned ∧ s.mg.fuses.owners.length < 4 ∧
     enrollAllowed s (session0 .owner) [] [] = true) ∧
    (withSession .owner (fun f => { f with owners := [[1], [2], [3], [4]] }) booted).mg.fuses.owners.length = 4 ∧
    enrollAllowed (withSession .operator id booted) (session0 .operator) [] [] = false ∧ booted.mg.regions.factoryCal = true :=
  ⟨fun x => ⟨_, in_session .service (fun f => { f with lcs := x, returns := 3 }), rfl, rfl, rfl⟩, by decide, by decide, by decide, by decide⟩

theorem witness_ManagementBus :
    (let s := { booted with mg := { booted.mg with bus := { booted.mg.bus with i3cOn := true } } }
     s.awake = true ∧ s.mg.bus.i3cOn = true ∧ s.mg.bus.dynAddr = none) ∧
    ({ booted.mg.bus with dynAddr := some 9 } : Bus).dynAddr ≠ none ∧ booted.mg.boot.st ≠ .off ∧ booted.mg.boot.st.isReady = true ∧
    State.reset.mg.boot.st.isReady = false ∧ testEngineOpen booted.mg = false ∧
    testEngineOpen (withSession .owner (fun f => { f with lcs := .test }) booted).mg = true := by decide

/-- A CONFIG section of a system of one module, with the mode table's defaults. -/
def configBytes : List Byte :=
  List.replicate 0x80A 0 ++ [1, 1, 1] ++ List.replicate 0x2B 0 ++ [0, 0, 0, 6, 12, 0] ++ leBytes 2 3200 ++ leBytes 4 10 ++ leBytes 4 3600 ++
    List.replicate 0x208 0

/-- Bring-up's check of CONFIG passes on it. Whether an image verifies rests on Falcon-1024, which the model leaves open: no
concrete image can be shown to. -/
theorem witness_config : configOk configBytes = true ∧ configOk [] = false := by decide +kernel

end Sys2Proof.Tests
end

section
/-! The 54 V feed: what closing the switch and losing power do, and the commands of the power pins (R3, R407, R483, R489, R490). -/

namespace Sys2Proof.Machine

/-! ### Closing the switch -/

/-- A trip keeps the switch as it is (R496). -/
theorem Pins.closeSwitch_tripped {p : Pins} (trip : p.thermTripN = true) : p.closeSwitch = p :=
  if_pos trip

/-- The re-assertion hold keeps an assertion for its end (R490). -/
theorem Pins.closeSwitch_held {p : Pins} (trip : p.thermTripN = false) (hold : p.hold = true) :
    p.closeSwitch = { p with heldEn := true } :=
  (if_neg (ne_true_of_eq_false trip)).trans (if_pos hold)

/-- With neither, VIN alone decides (R483). -/
theorem Pins.closeSwitch_free {p : Pins} (trip : p.thermTripN = false) (hold : p.hold = false) :
    p.closeSwitch = { p with switchOn := p.switchOn || vinOk p.vinMv } := by
  have vin : p.closeSwitch = if vinOk p.vinMv then { p with switchOn := true } else p :=
    (if_neg (ne_true_of_eq_false trip)).trans (if_neg (ne_true_of_eq_false hold))
  rw [vin]
  split
  next ok => rw [ok, Bool.or_true]
  next bad => simp [bad]

/-! ### Reset and loss of power -/

theorem State.wholeReset_resetOf (s : State) (st : BootSt) : ResetOf s (s.wholeReset st) st :=
  ⟨rfl, rfl, rfl, rfl, rfl, rfl, rfl, rfl, rfl⟩

/-- A restart goes to Primer, or stays off while MOD_RESET_N is low (R493). -/
theorem State.restart_resetOf (s : State) : ResetOf s s.restart (if s.mg.pins.modResetN then .off else .primer) :=
  s.wholeReset_resetOf _

/-- Of the state before, a reset reads no pin but PERST_N. -/
theorem ResetOf.of_setPins {s t : State} {st : BootSt} {p : Pins} (perst : p.perstN = s.mg.pins.perstN)
    (h : ResetOf (s.setPins p) t st) : ResetOf s t st :=
  { h with dp := by simpa [perst] using h.dp }

/-- Of the state after, a reset says nothing of the pins. -/
theorem ResetOf.setPins {s t : State} {st : BootSt} (h : ResetOf s t st) (p : Pins) : ResetOf s (t.setPins p) st :=
  { h with }

/-- After a loss of power the pins may change where PWR_GOOD stays low and the switch open. -/
theorem State.powerLoss_setPins_lost (s : State) {p : Pins} (good : p.pwrGood = false) (switch : p.switchOn = false) :
    PowerLost s (s.powerLoss.setPins p) :=
  ⟨ResetOf.setPins (ResetOf.setPins (s.wholeReset_resetOf .off) _) p, good, switch⟩

/-! ### PWR_EN and PWR_GOOD (R407, R489, R490) -/

theorem exec_pwrEnAssert_asserted {s : State} (en : s.mg.pins.pwrEn = true) : exec .pwrEnAssert s = .next s :=
  show execPwrEnAssert s = _ from if_pos en

theorem exec_pwrEnAssert_deasserted {s : State} (en : s.mg.pins.pwrEn = false) :
    exec .pwrEnAssert s = .next (s.setPins { s.mg.pins with pwrEn := true, railFail := false }.closeSwitch) :=
  show execPwrEnAssert s = _ from if_neg (ne_true_of_eq_false en)

theorem exec_pwrGoodAssert_failed {s : State} (on : s.mg.pins.switchOn = true) (good : s.mg.pins.pwrGood = false) :
    exec (.pwrGoodAssert false) s = .next (s.setPins { s.mg.pins with switchOn := false, railFail := true }) :=
  show execPwrGoodAssert false s = _ from (if_pos (by simp [on, good])).trans (if_neg Bool.false_ne_true)

theorem exec_pwrGoodAssert_passed {s : State} (on : s.mg.pins.switchOn = true) (good : s.mg.pins.pwrGood = false) :
    exec (.pwrGoodAssert true) s = .next (s.setPins { s.mg.pins with pwrGood := true }).restart :=
  show execPwrGoodAssert true s = _ from (if_pos (by simp [on, good])).trans (if_pos rfl)

/-- Rails that pass their check start bring-up with power. -/
theorem exec_pwrGoodAssert_restarts {s : State} (on : s.mg.pins.switchOn = true) (good : s.mg.pins.pwrGood = false) :
    ∃ t : State, exec (.pwrGoodAssert true) s = .next t ∧ ResetOf s t (if s.mg.pins.modResetN then .off else .primer) ∧
      t.mg.pins.pwrGood = true ∧ t.mg.pins.switchOn = true :=
  ⟨_, exec_pwrGoodAssert_passed on good,
    ResetOf.of_setPins (p := { s.mg.pins with pwrGood := true }) rfl (State.restart_resetOf _), rfl, on⟩

theorem exec_pwrEnDeassert_asserted {s : State} (en : s.mg.pins.pwrEn = true) :
    exec .pwrEnDeassert s = .next (s.powerLoss.setPins
      { s.powerLoss.mg.pins with pwrEn := false, hold := true, heldEn := false, railFail := false }) :=
  show execPwrEnDeassert s = _ from if_pos en

theorem exec_pwrEnHoldExpiry_held {s : State} (hold : s.mg.pins.hold = true) :
    exec .pwrEnHoldExpiry s = .next (s.setPins
      (if s.mg.pins.heldEn && s.mg.pins.pwrEn then { s.mg.pins with hold := false, heldEn := false }.closeSwitch
       else { s.mg.pins with hold := false, heldEn := false })) :=
  show execPwrEnHoldExpiry s = _ from if_pos hold

/-- A held assertion goes on as an assertion at the hold's end would. -/
theorem exec_pwrEnHoldExpiry_closes {s : State} (hold : s.mg.pins.hold = true) (trip : s.mg.pins.thermTripN = false)
    (held : s.mg.pins.heldEn = true) (en : s.mg.pins.pwrEn = true) :
    exec .pwrEnHoldExpiry s = .next (s.setPins { s.mg.pins with
      hold := false, heldEn := false, switchOn := s.mg.pins.switchOn || vinOk s.mg.pins.vinMv }) := by
  rw [exec_pwrEnHoldExpiry_held hold, if_pos (by simp [held, en]), Pins.closeSwitch_free]
  · exact trip
  · exact rfl

/-- Without a held assertion, or in a trip, the hold only ends. -/
theorem exec_pwrEnHoldExpiry_ends {s : State} (hold : s.mg.pins.hold = true)
    (idle : (s.mg.pins.heldEn && s.mg.pins.pwrEn && !s.mg.pins.thermTripN) = false) :
    exec .pwrEnHoldExpiry s = .next (s.setPins { s.mg.pins with hold := false, heldEn := false }) := by
  rw [exec_pwrEnHoldExpiry_held hold]
  split
  next goes => rw [Pins.closeSwitch_tripped (by simpa [goes] using idle)]
  next => rfl

/-! ### VIN (R3, R483, R489, R490) -/

theorem exec_vinUndervoltage_falls {s : State} {mv : Nat} (low : mv < 44000) (was : 44000 ≤ s.mg.pins.vinMv) :
    exec (.vinUndervoltage mv) s = .next (s.powerLoss.setPins { s.powerLoss.mg.pins with vinMv := mv }) :=
  show execVinUndervoltage mv s = _ from if_pos (by simp [low, was])

theorem exec_vinOvervoltage_rises {s : State} {mv : Nat} (high : 62000 < mv) :
    exec (.vinOvervoltage mv) s = .next (s.powerLoss.setPins { s.powerLoss.mg.pins with vinMv := mv }) :=
  show execVinOvervoltage mv s = _ from if_pos high

theorem vinOk_of_le {mv : Nat} (lo : 46000 ≤ mv) (hi : mv ≤ 62000) : vinOk mv = true :=
  Bool.and_eq_true_iff.mpr ⟨decide_eq_true lo, decide_eq_true hi⟩

theorem exec_switchOnThreshold_rises {s : State} {mv : Nat} (was : s.mg.pins.vinMv < 46000) (lo : 46000 ≤ mv) (hi : mv ≤ 62000) :
    exec (.switchOnThreshold mv) s = .next (s.setPins
      (if s.mg.pins.pwrEn && !s.mg.pins.switchOn && !s.mg.pins.railFail then { s.mg.pins with vinMv := mv }.closeSwitch
       else { s.mg.pins with vinMv := mv })) :=
  show execSwitchOnThreshold mv s = _ from if_pos (by simp [was, vinOk_of_le lo hi])

section SwitchOnThreshold

variable {s : State} {mv : Nat} (was : s.mg.pins.vinMv < 46000) (lo : 46000 ≤ mv) (hi : mv ≤ 62000)
include was lo hi

/-- An assertion that waits for VIN tries to close the switch. -/
theorem exec_switchOnThreshold_tries
    (waits : (s.mg.pins.pwrEn && !s.mg.pins.switchOn && !s.mg.pins.railFail && !s.mg.pins.thermTripN) = true) :
    s.mg.pins.thermTripN = false ∧
    exec (.switchOnThreshold mv) s = .next (s.setPins { s.mg.pins with vinMv := mv }.closeSwitch) := by
  rw [Bool.and_eq_true, Bool.not_eq_true'] at waits
  obtain ⟨waits, trip⟩ := waits
  rw [exec_switchOnThreshold_rises was lo hi, if_pos waits]
  exact ⟨trip, rfl⟩

theorem exec_switchOnThreshold_closes
    (waits : (s.mg.pins.pwrEn && !s.mg.pins.switchOn && !s.mg.pins.railFail && !s.mg.pins.thermTripN) = true)
    (hold : s.mg.pins.hold = false) :
    exec (.switchOnThreshold mv) s = .next (s.setPins { s.mg.pins with vinMv := mv, switchOn := true }) := by
  obtain ⟨trip, runs⟩ := exec_switchOnThreshold_tries was lo hi waits
  rw [runs, Pins.closeSwitch_free]
  · simp [vinOk_of_le lo hi]
  · exact trip
  · exact hold

theorem exec_switchOnThreshold_held
    (waits : (s.mg.pins.pwrEn && !s.mg.pins.switchOn && !s.mg.pins.railFail && !s.mg.pins.thermTripN) = true)
    (hold : s.mg.pins.hold = true) :
    exec (.switchOnThreshold mv) s = .next (s.setPins { s.mg.pins with vinMv := mv, heldEn := true }) := by
  obtain ⟨trip, runs⟩ := exec_switchOnThreshold_tries was lo hi waits
  rw [runs, Pins.closeSwitch_held]
  · exact trip
  · exact hold

/-- With nothing waiting for VIN, or in a trip, only the reading changes. -/
theorem exec_switchOnThreshold_only_vin
    (idle : (s.mg.pins.pwrEn && !s.mg.pins.switchOn && !s.mg.pins.railFail && !s.mg.pins.thermTripN) = false) :
    exec (.switchOnThreshold mv) s = .next (s.setPins { s.mg.pins with vinMv := mv }) := by
  rw [exec_switchOnThreshold_rises was lo hi]
  split
  next waits => rw [Pins.closeSwitch_tripped (by rw [waits] at idle; simpa using idle)]
  next => rfl

end SwitchOnThreshold

/-- DEFERRED_RESET restarts the module where a reset is due (R407, R439). -/
theorem exec_deferredReset_due {s : State} (due : s.mg.sec.resetDue = true) : exec .deferredReset s = .next s.restart :=
  show execDeferredReset s = _ from if_pos due

/-- Settles O52: each command of the feed is one equation above, and what a loss of power or a restart leaves is `ResetOf` of the
state before, whatever the pins. -/
theorem powerPins : Obligations.PowerPins := by
  unfold Obligations.PowerPins
  refine ⟨fun s => exec_pwrEnAssert_asserted, ?tripped, ?held, ?closes, fun s => exec_pwrGoodAssert_failed,
    fun s => exec_pwrGoodAssert_restarts, ?deassert, fun s => exec_pwrEnHoldExpiry_closes,
    fun s => exec_pwrEnHoldExpiry_ends, ?undervoltage, ?overvoltage,
    fun mv s => exec_switchOnThreshold_closes, fun mv s => exec_switchOnThreshold_held,
    fun mv s => exec_switchOnThreshold_only_vin, ?off, ?deferred⟩
  case tripped =>
    intro s en trip
    rw [exec_pwrEnAssert_deasserted en, Pins.closeSwitch_tripped]
    exact trip
  case held =>
    intro s en trip hold
    rw [exec_pwrEnAssert_deasserted en, Pins.closeSwitch_held]
    · exact trip
    · exact hold
  case closes =>
    intro s en trip hold
    rw [exec_pwrEnAssert_deasserted en, Pins.closeSwitch_free]
    · exact trip
    · exact hold
  case deassert =>
    exact fun s en => ⟨_, exec_pwrEnDeassert_asserted en, s.powerLoss_setPins_lost rfl rfl, rfl, rfl, rfl⟩
  case undervoltage =>
    exact fun mv s low was => ⟨_, exec_vinUndervoltage_falls low was, s.powerLoss_setPins_lost rfl rfl, rfl⟩
  case overvoltage =>
    exact fun mv s high => ⟨_, exec_vinOvervoltage_rises high, s.powerLoss_setPins_lost rfl rfl, rfl⟩
  case off =>
    exact fun s => ⟨_, rfl, s.powerLoss_setPins_lost rfl rfl, Nat.lt_succ_of_le (Nat.min_le_right _ 29999), rfl, rfl, rfl, rfl⟩
  case deferred =>
    exact fun s due => ⟨_, exec_deferredReset_due due, s.restart_resetOf⟩

end Sys2Proof.Machine
end

section
/-! What the host reads and writes (R11, R12, R118, R246, R251, R291, R461, R469): what each block of registers reads, what a write
changes of it, the counters that a read changes, and the other PCIe requests. The model's large functions are opened by `delta`,
or by `if_pos` and `if_neg` up to definition: their equation lemmas would cost the check much memory. -/

namespace Sys2Proof.Machine

/-! ### Partitions and register words -/

@[simp] theorem DataPlane.part_setPart_self (dp : DataPlane) (p : Nat) (x : Part) : (dp.setPart p x).part p = x :=
  SMap.get_set_self _ _ _ _

theorem DataPlane.regWord_setRegWord_self (dp : DataPlane) (fn off v : Nat) :
    (dp.setRegWord fn off v).regWord fn off = v % 2 ^ 32 :=
  (congrArg BitVec.toNat (SMap.get_set_self ..)).trans (BitVec.toNat_ofNat ..)

theorem DataPlane.regWord_setRegWord_ne (dp : DataPlane) (fn : Nat) {off o : Nat} (v : Nat) (h : o ≠ off) :
    (dp.setRegWord fn off v).regWord fn o = dp.regWord fn o := by
  have hk : regKey fn off ≠ regKey fn o := fun e => h (Nat.add_left_cancel e).symm
  exact congrArg BitVec.toNat (SMap.get_set_ne _ _ _ hk)

/-! ### What each block reads -/

/-- Below the owner blocks, PF0 reads its word of `dp.regs`. -/
theorem readOwner_low (s : State) {off : Nat} (hi : off < 0x20000) : readOwner s off = s.dp.regWord 0 off := by
  delta readOwner
  simp only [Bool.and_eq_true, decide_eq_true_eq]
  iterate 12 rw [if_neg (by omega)]

/-- Below 0x7000: the identity, the partition's, meter's and mailbox's registers, the Patch test, the error log's indices, and
else the function's own words. -/
theorem readReg_low (s : State) (fn : Nat) {off : Nat} (hi : off < 0x7000) :
    readReg s fn off =
      if off < 0x1000 then readIdentity s fn off
      else if off = 0x1000 then partStatus (s.dp.part fn)
      else if off = 0x1004 then meterStatus s.env s.dp fn
      else if off = 0x1008 then SMap.get 0 s.dp.meter.sel fn
      else if 0x3000 ≤ off ∧ off < 0x4000 then
        wordAt (SMap.get [] s.mg.sec.win (if fn = 0 then 0 else fn + 2)) (off - 0x3000)
      else if 0x5000 ≤ off ∧ off < 0x6000 then readPatch (s.dp.part fn).patch (off - 0x5000)
      else if off = 0x6000 then (s.dp.part fn).elogHead * 2 ^ 16 + (s.dp.part fn).elogTail
      else if off = 0x6004 then (s.dp.part fn).elogDrop
      else s.dp.regWord fn off := by
  delta readReg
  simp only [Bool.and_eq_true, decide_eq_true_eq]
  iterate 8 refine ite_congr rfl (fun _ => rfl) (fun _ => ?_)
  iterate 5 rw [if_neg (by omega)]
  split
  next pf => rw [pf, readOwner_low s (by omega)]
  next => rw [if_neg (by omega)]

theorem readReg_patch (s : State) (fn : Nat) {off : Nat} (lo : 0x5000 ≤ off) (hi : off < 0x6000) :
    readReg s fn off = readPatch (s.dp.part fn).patch (off - 0x5000) := by
  rw [readReg_low s fn (by omega)]
  iterate 5 rw [if_neg (by omega)]
  rw [if_pos ⟨lo, hi⟩]

theorem readReg_command (s : State) (fn : Nat) {off : Nat} (lo : 0x4000 ≤ off) (hi : off < 0x5000) :
    readReg s fn off = s.dp.regWord fn off := by
  rw [readReg_low s fn (by omega)]
  iterate 8 rw [if_neg (by omega)]

theorem readReg_elogDrop (s : State) (fn : Nat) : readReg s fn 0x6004 = (s.dp.part fn).elogDrop :=
  readReg_low s fn (by decide)

theorem readReg_telem (s : State) (fn : Nat) {off : Nat} (lo : 0xA000 ≤ off) (hi : off < 0xC000) :
    readReg s fn off = readTelem s fn (off - 0xA000) := by
  delta readReg
  simp only [Bool.and_eq_true, decide_eq_true_eq]
  iterate 9 rw [if_neg (by omega)]
  rw [if_pos ⟨lo, hi⟩]

/-- METER_STATUS reads the meter and the life cycle. -/
theorem meterStatus_congr {e e' : Env} {dp dp' : DataPlane} (fn : Nat) (lcs : e'.lcs = e.lcs) (meter : dp'.meter = dp.meter) :
    meterStatus e' dp' fn = meterStatus e dp fn := by
  delta meterStatus openParts DataPlane.openRec sealOf
  rw [meter, lcs]

theorem readIdentity_congr {s t : State} (fn off : Nat) (fb : t.fb = s.fb) (mg : t.mg = s.mg) :
    readIdentity t fn off = readIdentity s fn off := by
  delta readIdentity
  rw [fb, mg]

/-- Below 0x7000 a register reads the fabric, the management plane, the meter, the function's partition, and the function's
own word of `dp.regs`: where those agree, but for the Patch test's registers, so do two reads. -/
theorem readReg_congr {s t : State} {fn off : Nat} {x : Patch} (hi : off < 0x7000) (fb : t.fb = s.fb) (mg : t.mg = s.mg)
    (meter : t.dp.meter = s.dp.meter) (part : t.dp.part fn = { s.dp.part fn with patch := x })
    (patch : 0x5000 ≤ off → readPatch x (off - 0x5000) = readPatch (s.dp.part fn).patch (off - 0x5000))
    (word : t.dp.regWord fn off = s.dp.regWord fn off) : readReg t fn off = readReg s fn off := by
  have status : meterStatus t.env t.dp fn = meterStatus s.env s.dp fn :=
    meterStatus_congr fn (congrArg (fun m : Mgmt => lcCode m.fuses.lcs) mg) meter
  rw [readReg_low t fn hi, readReg_low s fn hi, readIdentity_congr fn off fb mg, status, meter, mg, part, word]
  iterate 5 refine ite_congr rfl (fun _ => rfl) (fun _ => ?_)
  exact ite_congr rfl (fun inPatch => patch inPatch.1) (fun _ => rfl)

/-! ### Writes of plain registers (R11, R461) -/

/-- A Patch test register without fields is what was written. -/
theorem readPatch_writePatch_self (x : Patch) {off : Nat} (plain : off ∈ [0x04, 0x08, 0x0C]) (v : U32) :
    readPatch (writePatch x off v) off = v.toNat := by
  simp only [List.mem_cons, List.not_mem_nil, or_false] at plain
  obtain rfl | rfl | rfl := plain <;> rfl

/-- A write to one of them leaves the others: only its own field of the block changes. -/
theorem readPatch_writePatch_ne (x : Patch) {off o : Nat} (plain : off ∈ [0x04, 0x08, 0x0C]) (ne : o ≠ off) (v : U32) :
    readPatch (writePatch x off v) o = readPatch x o := by
  simp only [List.mem_cons, List.not_mem_nil, or_false] at plain
  unfold readPatch
  obtain rfl | rfl | rfl := plain
  all_goals split <;> simp_all [writePatch]

theorem writeReg_patch (s : State) (fn : Nat) {off : Nat} (lo : 0x5000 ≤ off) (hi : off < 0x6000) (v : U32) :
    writeReg s fn off v =
      s.setDp (s.dp.setPart fn { s.dp.part fn with patch := writePatch (s.dp.part fn).patch (off - 0x5000) v }) := by
  delta writeReg
  simp only [Bool.and_eq_true, decide_eq_true_eq]
  rw [if_neg (by omega), if_pos ⟨lo, hi⟩]

theorem functionField_command (dp : DataPlane) (fn : Nat) {off : Nat} (w : Nat)
    (plain : off ∈ [0x4004, 0x4008, 0x4014, 0x4018, 0x4024, 0x4028]) : functionField dp fn off w = some w := by
  have other : ¬ (decide (off = 0x4000) || decide (off = 0x4010) || decide (off = 0x4020)) = true := by
    simp only [List.mem_cons, List.not_mem_nil, or_false, Bool.or_eq_true, decide_eq_true_eq] at plain ⊢
    omega
  exact (if_neg other).trans (if_pos (by simpa [or_assoc] using plain))

/-- The registers that hold an address or a size for a command take any value (R285, R317, R332). -/
theorem writeReg_command (s : State) (fn : Nat) {off : Nat} (v : U32)
    (plain : off ∈ [0x4004, 0x4008, 0x4014, 0x4018, 0x4024, 0x4028]) :
    writeReg s fn off v = s.setDp (s.dp.setRegWord fn off v.toNat) := by
  have field := functionField_command s.dp fn v.toNat plain
  simp only [List.mem_cons, List.not_mem_nil, or_false] at plain
  delta writeReg
  simp only [Bool.and_eq_true, decide_eq_true_eq]
  iterate 4 rw [if_neg (by omega)]
  simp only [field]
  rw [if_neg (by omega)]

/-- A write to a plain Patch test register reads back and shows nowhere else below 0x7000. -/
theorem readReg_writeReg_patch (s : State) (fn : Nat) {off : Nat} (v : U32) (plain : off ∈ [0x5004, 0x5008, 0x500C]) :
    readReg (writeReg s fn off v) fn off = v.toNat ∧
    ∀ o, o < 0x7000 → o ≠ off → readReg (writeReg s fn off v) fn o = readReg s fn o := by
  simp only [List.mem_cons, List.not_mem_nil, or_false] at plain
  have lo : 0x5000 ≤ off := by omega
  have hi : off < 0x6000 := by omega
  have inner : off - 0x5000 ∈ [0x04, 0x08, 0x0C] := by
    simp only [List.mem_cons, List.not_mem_nil, or_false]
    omega
  rw [writeReg_patch s fn lo hi]
  constructor
  · rw [readReg_patch _ fn lo hi, State.setDp_dp, DataPlane.part_setPart_self, readPatch_writePatch_self _ inner]
  · intro o low ne
    exact readReg_congr low rfl rfl rfl (DataPlane.part_setPart_self ..)
      (fun above => readPatch_writePatch_ne _ inner (by omega) v) rfl

/-- A write to a command's address register reads back and shows nowhere else below 0x7000. -/
theorem readReg_writeReg_command (s : State) (fn : Nat) {off : Nat} (v : U32)
    (plain : off ∈ [0x4004, 0x4008, 0x4014, 0x4018, 0x4024, 0x4028]) :
    readReg (writeReg s fn off v) fn off = v.toNat ∧
    ∀ o, o < 0x7000 → o ≠ off → readReg (writeReg s fn off v) fn o = readReg s fn o := by
  rw [writeReg_command s fn v plain]
  simp only [List.mem_cons, List.not_mem_nil, or_false] at plain
  constructor
  · rw [readReg_command _ fn (by omega) (by omega), State.setDp_dp, DataPlane.regWord_setRegWord_self,
      Nat.mod_eq_of_lt v.isLt]
  · intro o low ne
    exact readReg_congr low rfl rfl rfl (x := (s.dp.part fn).patch) rfl (fun _ => rfl)
      (DataPlane.regWord_setRegWord_ne _ _ _ ne)

theorem exec_registerWrite_ignored {s : State} (awake : s.awake = true) (fn : Nat) {off width : Nat} (v : U32)
    (bad : width ≠ 4 ∨ off % 4 ≠ 0) : exec (.registerWrite .bar0 fn off width v) s = .next s :=
  show execRegisterWrite .bar0 fn off width v s = _ from
    (State.hub_awake awake _).trans (congrArg Host.Outcome.next (if_neg (by simp; omega)))

theorem exec_registerWrite_bar0 {s : State} (awake : s.awake = true) {fn off : Nat} (decodes : barDecodes s fn off = true)
    (aligned : off % 4 = 0) (v : U32) : exec (.registerWrite .bar0 fn off 4 v) s = .next (writeReg s fn off v) :=
  show execRegisterWrite .bar0 fn off 4 v s = _ from
    (State.hub_awake awake _).trans (congrArg Host.Outcome.next (if_pos (by simp [aligned, decodes])))

/-! ### SR-IOV (R291, R420; its offsets and the rules of its two fields are log entries 12 and 53) -/

theorem exec_registerWrite_sriov {s : State} (awake : s.awake = true) (up : fnExists s.dp 0 = true) (off width : Nat) (v : U32) :
    exec (.registerWrite .sriov 0 off width v) s = .next (writeSriov s off v) :=
  show execRegisterWrite .sriov 0 off width v s = _ from
    (State.hub_awake awake _).trans (congrArg Host.Outcome.next (if_pos (by simp [up])))

theorem bit_zero_eq_testBit (n : Nat) : bit n 0 = n.testBit 0 := by
  change (n / 1 % 2 == 1) = _
  rw [Nat.testBit_zero, Nat.div_one]
  rfl

theorem bits_15_0 (n : Nat) : bits n 15 0 = n % 2 ^ 16 :=
  congrArg (· % 2 ^ 16) (Nat.div_one n)

theorem writeSriov_vfEnable {s : State} {v : U32} (ready : s.env.serving = true) (set : v.toNat.testBit 0 = true) :
    writeSriov s 0x8 v = s.setDp { s.dp with vfEnable := true } :=
  (if_pos rfl).trans (if_pos (by rw [ready, bit_zero_eq_testBit, set, Bool.and_self]))

theorem writeSriov_numVfs {s : State} (v : U32) (off : s.dp.vfEnable = false) :
    writeSriov s 0x10 v = s.setDp { s.dp with numVfs := min 16 (v.toNat % 2 ^ 16) } := by
  rw [← bits_15_0]
  exact (if_neg (by decide)).trans ((if_pos rfl).trans (if_neg (ne_true_of_eq_false off)))

/-! ### Counters that a read changes (R11, R118, R461, R469) -/

theorem barRead_decoded {s : State} {fn off : Nat} (decodes : barDecodes s fn off = true) (aligned : off % 4 = 0) :
    barRead s fn off 4 = leBytes 4 (readReg s fn off) :=
  (if_neg (by simp [aligned])).trans (if_pos decodes)

/-- At a read-clear counter, the cleared partition reads 0 there. -/
theorem clearCounter_reads_zero (p : Part) {off : Nat} (rc : off ∈ [0x501C, 0x5020, 0x5024, 0x5028, 0x6004]) :
    ∃ x, clearCounter p off = some x ∧ ∀ (t : State) (fn : Nat), t.dp.part fn = x → readReg t fn off = 0 := by
  simp only [List.mem_cons, List.not_mem_nil, or_false] at rc
  obtain rfl | rfl | rfl | rfl | rfl := rc
  case inr.inr.inr.inr =>
    exact ⟨_, rfl, fun t fn is => by rw [readReg_elogDrop, is]⟩
  all_goals exact ⟨_, rfl, fun t fn is => by rw [readReg_patch t fn (by decide) (by decide), is]; rfl⟩

theorem exec_counterReadClear {s : State} (awake : s.awake = true) {fn off : Nat} {x : Part} (up : fnExists s.dp fn = true)
    (decodes : barDecodes s fn off = true) (aligned : off % 4 = 0) (rc : clearCounter (s.dp.part fn) off = some x) :
    exec (.counterReadClear fn off) s =
      .next (s.setDp (({ s.dp with cpl := some (.data (leBytes 4 (readReg s fn off))) } : DataPlane).setPart fn x)) := by
  refine (show execCounterReadClear fn off s = _ from State.hub_awake awake _).trans (congrArg Host.Outcome.next ?_)
  simp only [rc, up, decodes, barRead_decoded decodes aligned, Bool.not_true, Bool.false_eq_true, if_false, if_true]
  rfl

theorem bounds_of_mem_telemOffsets {k : Nat} (h : k ∈ telemOffsets) : 0x100 ≤ k ∧ k < 0x2000 ∧ k % 8 = 0 := by
  delta telemOffsets at h
  simp only [List.mem_append, List.mem_map, List.mem_range] at h
  obtain ⟨i, hi, rfl⟩ | ⟨i, hi, rfl⟩ := h <;> omega

theorem readTelem_counter (s : State) (fn : Nat) {k : Nat} (counter : k ∈ telemOffsets) :
    readTelem s fn k = telemSeen s fn k % 2 ^ 32 := by
  obtain ⟨lo, -, -⟩ := bounds_of_mem_telemOffsets counter
  exact (if_neg (by omega)).trans (if_pos (List.contains_iff_mem.mpr counter))

/-- The word above a counter's low word is the function's latch. -/
theorem readTelem_highWord (s : State) (fn : Nat) {k : Nat} (counter : k ∈ telemOffsets) :
    readTelem s fn (k + 4) = (SMap.get 0 s.dp.latch fn).toNat := by
  obtain ⟨lo, -, row⟩ := bounds_of_mem_telemOffsets counter
  have high : k + 4 ∉ telemOffsets := fun h => by
    obtain ⟨-, -, row'⟩ := bounds_of_mem_telemOffsets h
    omega
  exact (if_neg (by omega)).trans ((if_neg (by simpa using high)).trans (if_pos (by simpa using counter)))

theorem exec_counterLowWordRead {s : State} (awake : s.awake = true) {fn off : Nat} (up : fnExists s.dp fn = true)
    (decodes : barDecodes s fn off = true) (aligned : off % 4 = 0) (lo : 0xA000 ≤ off) (counter : off - 0xA000 ∈ telemOffsets) :
    exec (.counterLowWordRead fn off) s = .next (s.setDp { s.dp with
      cpl := some (.data (leBytes 4 (readReg s fn off)))
      latch := SMap.set 0 s.dp.latch fn (BitVec.ofNat 32 (telemSeen s fn (off - 0xA000) / 2 ^ 32)) }) := by
  refine (show execCounterLowWordRead fn off s = _ from State.hub_awake awake _).trans (congrArg Host.Outcome.next ?_)
  rw [if_pos (by simp [up, lo, counter])]
  simp only [decodes, barRead_decoded decodes aligned, if_true]
  rfl

/-- The low word read and then the high word make the counter, modulo 2^64. -/
theorem low_add_high_word (n : Nat) : n % 2 ^ 32 + n / 2 ^ 32 % 2 ^ 32 * 2 ^ 32 = n % 2 ^ 64 := by omega

theorem telemSeen_pf0 (s : State) (k : Nat) : telemSeen s 0 k = telemCounter s k := if_pos rfl

/-- A counter is in the links or in the data plane's table. -/
theorem telemCounter_congr {s t : State} (k : Nat) (fb : t.fb = s.fb) (telem : t.dp.telem = s.dp.telem) :
    telemCounter t k = telemCounter s k := by
  delta telemCounter
  rw [fb, telem]

/-- With the high word of a PF0 counter latched, its two words read the counter. -/
theorem readReg_counter_words {s t : State} {off : Nat} (lo : 0xA000 ≤ off) (counter : off - 0xA000 ∈ telemOffsets)
    (fb : t.fb = s.fb) (telem : t.dp.telem = s.dp.telem)
    (latched : SMap.get 0 t.dp.latch 0 = BitVec.ofNat 32 (telemSeen s 0 (off - 0xA000) / 2 ^ 32)) :
    readReg t 0 off + readReg t 0 (off + 4) * 2 ^ 32 = telemCounter s (off - 0xA000) % 2 ^ 64 := by
  obtain ⟨-, hi, row⟩ := bounds_of_mem_telemOffsets counter
  have next : off + 4 - 0xA000 = off - 0xA000 + 4 := by omega
  rw [readReg_telem t 0 lo (by omega), readReg_telem t 0 (by omega) (by omega), next, readTelem_counter t 0 counter,
    readTelem_highWord t 0 counter, latched, telemSeen_pf0, telemSeen_pf0, telemCounter_congr _ fb telem, BitVec.toNat_ofNat,
    low_add_high_word]

/-! ### BAR2 and AtomicOp requests (R246, R251) -/

section Bar2

variable {s : State} (ready : s.env.serving = true) (up : s.dp.pcieDown = false)
include ready up

theorem exec_bar2_write_allowed {addr : Nat} (len : Nat) {data : List Byte}
    (ok : accessCheck s.dp 0 none .write addr data.length = none) : ∃ d : DataPlane,
      exec (.pfBar2DebugWindowAccess addr len (some data)) s = .next (s.setDp d) ∧ d.mem = s.dp.mem.write addr data := by
  refine ⟨_, show execPfBar2DebugWindowAccess addr len (some data) s = _ from State.work_serving ready _, ?_⟩
  simp [up, ok]

theorem exec_bar2_write_refused {addr : Nat} (len : Nat) {data : List Byte} {e : Nat × Nat}
    (bad : accessCheck s.dp 0 none .write addr data.length = some e) : ∃ d : DataPlane,
      exec (.pfBar2DebugWindowAccess addr len (some data)) s = .next (s.setDp d) ∧ d.mem = s.dp.mem := by
  refine ⟨_, show execPfBar2DebugWindowAccess addr len (some data) s = _ from State.work_serving ready _, ?_⟩
  simp [up, bad]

theorem exec_bar2_read_allowed {addr len : Nat} (ok : accessCheck s.dp 0 none .read addr len = none)
    (clean : poisonedAt s.dp.mem addr len = none) : ∃ d : DataPlane,
      exec (.pfBar2DebugWindowAccess addr len none) s = .next (s.setDp d) ∧ d.mem = s.dp.mem ∧
      d.cpl = some (.data (readBytes s.dp.mem.dev addr len)) := by
  refine ⟨_, show execPfBar2DebugWindowAccess addr len none s = _ from State.work_serving ready _, ?_⟩
  simp [up, ok, clean]

end Bar2

theorem exec_pcieAtomicopRequest {s : State} (awake : s.awake = true) {fn : Nat} (addr : Nat) (up : fnExists s.dp fn = true) :
    exec (.pcieAtomicopRequest fn addr) s = .next (s.setDp { s.dp with cpl := some .unsupported }) :=
  show execPcieAtomicopRequest fn addr s = _ from
    (State.hub_awake awake _).trans (congrArg Host.Outcome.next (if_pos up))

/-! ### The obligation -/

/-- Settles O50: each access is one equation above; what a write leaves unchanged follows from what the registers below 0x7000
read from. -/
theorem hostAccess : Obligations.HostAccess := by
  unfold Obligations.HostAccess
  refine ⟨fun fn off s awake up decodes => ⟨?readClear, ?lowWord, ?ignored, ?plain⟩,
    fun width v s awake up => ⟨?vfEnable, ?numVfs⟩,
    fun addr len data s ready up => ⟨exec_bar2_write_allowed ready up len, fun e => exec_bar2_write_refused ready up len,
      exec_bar2_read_allowed ready up⟩,
    fun fn addr s awake up => exec_pcieAtomicopRequest awake addr up⟩
  case readClear =>
    intro rc
    obtain ⟨x, cleared, zero⟩ := clearCounter_reads_zero (s.dp.part fn) rc
    have aligned : off % 4 = 0 := by
      simp only [List.mem_cons, List.not_mem_nil, or_false] at rc
      omega
    exact ⟨_, exec_counterReadClear awake up decodes aligned cleared, rfl,
      zero _ _ (DataPlane.part_setPart_self ..), rfl⟩
  case lowWord =>
    intro aligned lo counter
    replace counter : off - 0xA000 ∈ telemOffsets := List.contains_iff_mem.mp counter
    refine ⟨_, exec_counterLowWordRead awake up decodes aligned lo counter, rfl, ?_⟩
    rintro rfl
    exact readReg_counter_words lo counter (State.setDp_fb ..) (by rw [State.setDp_dp])
      (by rw [State.setDp_dp, SMap.get_set_self])
  case ignored => exact fun width v => exec_registerWrite_ignored awake fn v
  case plain =>
    intro v plain
    have aligned : off % 4 = 0 := by
      simp only [List.mem_cons, List.not_mem_nil, or_false] at plain
      omega
    refine ⟨_, exec_registerWrite_bar0 awake decodes aligned v, ?_⟩
    obtain ⟨same, others⟩ := (List.mem_append (s := [0x5004, 0x5008, 0x500C])).mp plain |>.elim
      (readReg_writeReg_patch s fn v) (readReg_writeReg_command s fn v)
    exact ⟨same, fun o _ => others o⟩
  case vfEnable =>
    intro ready set
    rw [exec_registerWrite_sriov awake up, writeSriov_vfEnable ready set]
  case numVfs =>
    intro off
    rw [exec_registerWrite_sriov awake up, writeSriov_numVfs v off]

end Sys2Proof.Machine
end

section
/-! What engine instructions leave unchanged (R91, R111, R171, R173): the rules about a tile's writes and reads while no atomic of
another agent is in progress, and the pieces of a write. Predicates of several clauses are conjunctions here, with a lemma for a
clause that is used alone: each further `structure` would cost the check the stack of one more waiting thread. -/

namespace Sys2Proof.Machine

/-! ### What leaves all but a tile alone -/

/-- `d` is `dp` but for tile `t`, memory, and what is kept by partition or for the whole module. -/
def OthersKept (t : Nat) (dp d : DataPlane) : Prop :=
  d.queues = dp.queues ∧ d.launches = dp.launches ∧ d.events = dp.events ∧ d.narrow = dp.narrow ∧
    ∀ n, n ≠ t → d.tile n = dp.tile n

theorem DataPlane.tile_setTile_ne (dp : DataPlane) {t n : Nat} (x : Tile) (ne : n ≠ t) : (dp.setTile t x).tile n = dp.tile n :=
  SMap.get_set_ne Tile.init dp.tiles x ne.symm

namespace OthersKept

variable {t : Nat} {dp d : DataPlane}

theorem refl (t : Nat) (dp : DataPlane) : OthersKept t dp dp := ⟨rfl, rfl, rfl, rfl, fun _ _ => rfl⟩

theorem trans {d' : DataPlane} (h : OthersKept t dp d) (h' : OthersKept t d d') : OthersKept t dp d' := by
  obtain ⟨queues, launches, events, narrow, tiles⟩ := h
  obtain ⟨queues', launches', events', narrow', tiles'⟩ := h'
  exact ⟨queues'.trans queues, launches'.trans launches, events'.trans events, narrow'.trans narrow,
    fun n ne => (tiles' n ne).trans (tiles n ne)⟩

theorem narrow (h : OthersKept t dp d) : d.narrow = dp.narrow := by
  obtain ⟨-, -, -, narrow, -⟩ := h
  exact narrow

theorem setTile (h : OthersKept t dp d) (x : Tile) : OthersKept t dp (d.setTile t x) :=
  h.trans ⟨rfl, rfl, rfl, rfl, fun _ => d.tile_setTile_ne x⟩

theorem setPart (h : OthersKept t dp d) (p : Nat) (x : Part) : OthersKept t dp (d.setPart p x) :=
  h.trans ⟨rfl, rfl, rfl, rfl, fun _ _ => rfl⟩

theorem addUsage (h : OthersKept t dp d) (p : Nat) (f : Usage → Usage) : OthersKept t dp (d.addUsage p f) :=
  h.trans ⟨rfl, rfl, rfl, rfl, fun _ _ => rfl⟩

theorem setMem (h : OthersKept t dp d) (m : MemSys) : OthersKept t dp { d with mem := m } :=
  h.trans ⟨rfl, rfl, rfl, rfl, fun _ _ => rfl⟩

theorem stir (h : OthersKept t dp d) (g : Option Nat) (a n : Nat) : OthersKept t dp (d.stir g a n) := by
  obtain ⟨m, k, eq⟩ := d.stir_eq g a n
  rw [eq]
  exact h.trans ⟨rfl, rfl, rfl, rfl, fun _ _ => rfl⟩

theorem tileWrite (h : OthersKept t dp d) (a : Nat) (bs : List Byte) : OthersKept t dp (d.tileWrite t a bs) :=
  (((h.setMem _).stir _ _ _).setTile _).addUsage _ _

theorem touch : ∀ {d : DataPlane} (rs : List (Nat × Nat)), OthersKept t dp d → OthersKept t dp (d.touch t rs)
  | _, [], h => h
  | _, (_, _) :: rs, h => touch rs (((h.setTile _).stir _ _ _).addUsage _ _)

theorem tlbTouch (h : OthersKept t dp d) (as_ : List Nat) : OthersKept t dp (tlbTouch d t as_) := h.setTile _

theorem patchChoose (h : OthersKept t dp d) (env : Env) (q : QEntry) (x : MatDesc) (rd : Nat → Byte) (rows : List Nat)
    (out : Nat → Nat → Nat) : OthersKept t dp (patchChoose env d t q x rd rows out) := by
  delta Machine.patchChoose
  dsimp only
  split
  · exact h
  · exact (h.setTile _).setPart _ _

theorem hostWrite (h : OthersKept t dp d) (fn a : Nat) (bs : List Byte) (bad : Bool) :
    OthersKept t dp (d.hostWrite fn a bs bad) := by
  unfold DataPlane.hostWrite
  split
  · exact h.setMem _
  · exact h

theorem performWrite (h : OthersKept t dp d) (w : EWrite) : OthersKept t dp (performWrite t d w) := by
  unfold Machine.performWrite
  split
  · exact h.hostWrite _ _ _ _
  · dsimp only
    split
    · exact (h.tileWrite _ _).setMem _
    · exact h.tileWrite _ _

theorem performWrites : ∀ {d : DataPlane} (ws : List EWrite), OthersKept t dp d → OthersKept t dp (performWrites t d ws)
  | _, [], h => h
  | _, w :: ws, h => performWrites ws (h.performWrite w)

end OthersKept

/-! ### Memory, while no atomic of another agent is in progress (R257) -/

theorem DataPlane.stir_of_calm {dp : DataPlane} (calm : dp.narrow = []) (g : Option Nat) (a n : Nat) : dp.stir g a n = dp := by
  simp [DataPlane.stir, DataPlane.tooNarrow, calm]

theorem DataPlane.tileWrite_mem {dp : DataPlane} (calm : dp.narrow = []) (t a : Nat) (bs : List Byte) :
    (dp.tileWrite t a bs).mem = dp.mem.write a bs :=
  congrArg DataPlane.mem (DataPlane.stir_of_calm (dp := { dp with mem := dp.mem.write a bs }) calm (some t) a bs.length)

theorem DataPlane.touch_mem (t : Nat) :
    ∀ {dp : DataPlane} (rs : List (Nat × Nat)), dp.narrow = [] → (dp.touch t rs).mem = dp.mem
  | _, [], _ => rfl
  | dp, (a, n) :: rs, calm => by
    unfold DataPlane.touch
    dsimp only
    rw [DataPlane.stir_of_calm (dp := dp.setTile t _) calm]
    exact DataPlane.touch_mem t rs calm

@[simp] theorem tlbTouch_mem (dp : DataPlane) (t : Nat) (as_ : List Nat) : (tlbTouch dp t as_).mem = dp.mem := rfl

@[simp] theorem patchChoose_mem (env : Env) (dp : DataPlane) (t : Nat) (q : QEntry) (x : MatDesc) (rd : Nat → Byte)
    (rows : List Nat) (out : Nat → Nat → Nat) : (patchChoose env dp t q x rd rows out).mem = dp.mem := by
  delta patchChoose
  dsimp only
  split <;> rfl

/-- A byte is no byte of `[a, a + n)`. -/
abbrev Outside (b a n : Nat) : Prop := b < a ∨ a + n ≤ b

@[simp] theorem hostWrite_dev (dp : DataPlane) (fn a : Nat) (bs : List Byte) (bad : Bool) :
    (dp.hostWrite fn a bs bad).mem.dev = dp.mem.dev := by
  unfold DataPlane.hostWrite
  split <;> rfl

theorem byteAt_performWrite {dp : DataPlane} (calm : dp.narrow = []) (t : Nat) {w : EWrite} {b : Nat}
    (out : w.host = false → Outside b w.addr w.data.length) :
    byteAt (performWrite t dp w).mem.dev b = byteAt dp.mem.dev b := by
  cases host : w.host with
  | true => rw [performWrite, if_pos host, hostWrite_dev]
  | false =>
    have dev : (performWrite t dp w).mem.dev = (dp.tileWrite t w.addr w.data).mem.dev := by
      rw [performWrite, if_neg (by simp [host])]
      dsimp only
      split <;> rfl
    rw [dev, DataPlane.tileWrite_mem calm]
    exact MemSys.write_outside _ _ _ _ (out host)

theorem byteAt_performWrites (t : Nat) {b : Nat} :
    ∀ {dp : DataPlane} (ws : List EWrite), dp.narrow = [] →
      (∀ w ∈ ws, w.host = false → Outside b w.addr w.data.length) →
      byteAt (performWrites t dp ws).mem.dev b = byteAt dp.mem.dev b
  | _, [], _, _ => rfl
  | dp, w :: ws, calm, out => by
    rw [List.forall_mem_cons] at out
    have calm' : (performWrite t dp w).narrow = [] := ((OthersKept.refl t dp).performWrite w).narrow.trans calm
    exact (byteAt_performWrites t ws calm' out.2).trans (byteAt_performWrite calm t out.1)

theorem freshBytes_length (k n : Nat) : (freshBytes k n).length = n := by simp [freshBytes]

theorem byteAt_undefine (t : Nat) {b : Nat} :
    ∀ {dp : DataPlane} (rs : List (Nat × Nat)), (∀ r ∈ rs, Outside b r.1 r.2) →
      byteAt (dp.undefine t rs).mem.dev b = byteAt dp.mem.dev b
  | _, [], _ => rfl
  | dp, (a, n) :: rs, out => by
    rw [List.forall_mem_cons] at out
    unfold DataPlane.undefine
    refine (byteAt_undefine t rs out.2).trans (MemSys.write_outside _ _ _ _ ?_)
    rw [freshBytes_length]
    exact out.1

/-! ### An instruction's start, failure and end -/

theorem mem_numberWrites : ∀ {k : Nat} {ws : List EWrite} {w : EWrite}, w ∈ numberWrites k ws →
    ∃ v ∈ ws, ∃ n, w = { v with key := n }
  | _, [], _, h => absurd h List.not_mem_nil
  | k, v :: ws, w, h => by
    obtain rfl | h := List.mem_cons.mp h
    · exact ⟨v, List.mem_cons_self, k, rfl⟩
    · obtain ⟨u, mem, n, eq⟩ := mem_numberWrites h
      exact ⟨u, List.mem_cons_of_mem v mem, n, eq⟩

/-- Numbering the pieces changes nothing else of them. -/
theorem mem_numberChunks : ∀ {k : Nat} {cs : List (List EWrite)} {w : EWrite}, w ∈ (numberChunks k cs).flatten →
    ∃ v ∈ cs.flatten, ∃ n, w = { v with key := n }
  | _, [], _, h => absurd h List.not_mem_nil
  | k, c :: cs, w, h => by
    rw [List.flatten_cons]
    obtain h | h := List.mem_append.mp h
    · obtain ⟨v, mem, n, eq⟩ := mem_numberWrites h
      exact ⟨v, List.mem_append_left _ mem, n, eq⟩
    · obtain ⟨v, mem, n, eq⟩ := mem_numberChunks h
      exact ⟨v, List.mem_append_right _ mem, n, eq⟩

theorem mem_of_mem_begun {cs : List (List EWrite)} {n m : Nat} {p : EWrite → Bool} {w : EWrite}
    (h : w ∈ ((cs.take n).drop m).flatten.filter p) : w ∈ cs.flatten := by
  obtain ⟨c, mem, hw⟩ := List.mem_flatten.mp (List.mem_filter.mp h).1
  exact List.mem_flatten.mpr ⟨c, List.mem_of_mem_take (List.mem_of_mem_drop mem), hw⟩

theorem mem_of_mem_left {r : Running} {w : EWrite} (h : w ∈ r.left) : w ∈ r.writes.flatten := by
  unfold Running.left at h
  split at h
  · exact h
  · obtain h | h := List.mem_append.mp h
    · exact mem_of_mem_begun (m := 0) h
    · obtain ⟨c, mem, hw⟩ := List.mem_flatten.mp h
      exact List.mem_flatten.mpr ⟨c, List.mem_of_mem_drop mem, hw⟩

/-- Starting an instruction changes no byte outside its writes; pieces for host memory count only where readers see undefined
data (R90, R252). -/
theorem byteAt_startRun (t : Nat) (h : QEntry) {x : EngineEffect} {b : Nat} (calm : x.dp.narrow = [])
    (out : ∀ w ∈ x.writes.flatten, (w.host = true ∧ x.hidden = false) ∨ Outside b w.addr w.data.length) :
    byteAt (startRun t h x).1.mem.dev b = byteAt x.dp.mem.dev b := by
  unfold startRun
  dsimp only
  split
  next hidden =>
    refine byteAt_undefine t _ fun r hr => ?_
    obtain ⟨w, hw, rfl⟩ := List.mem_map.mp hr
    obtain ⟨v, hv, n, rfl⟩ := mem_numberChunks hw
    exact (out v hv).resolve_left (by simp [hidden])
  next =>
    refine byteAt_performWrites t (dp := { x.dp with free := _ }) _ calm fun w hw dev => ?_
    obtain ⟨v, hv, n, rfl⟩ := mem_numberChunks (mem_of_mem_begun hw)
    exact (out v hv).resolve_left fun host => by simp [host.1] at dev

theorem engineFail_mem (env : Env) (dp : DataPlane) (t e sub : Nat) (q : QEntry) (f : EFault) :
    (engineFail env dp t e sub q f).mem = dp.mem := by
  unfold engineFail
  dsimp only [DataPlane.setTile_mem]

theorem State.started_mem (s : State) (t e : Nat) (h : QEntry) (x : EngineEffect) :
    (s.started t e h x).dp.mem = (startRun t h x).1.mem := by
  unfold State.started
  dsimp only [State.setDp_dp, DataPlane.setTile_mem]

theorem State.stopped_mem (s : State) (t e sub : Nat) (r : List QEntry) (h : QEntry) (f : EngineFail) :
    (s.stopped t e sub r h f).dp.mem = (f.after ((s.taken t e r).undefine t f.undef)).mem := by
  rw [State.stopped, State.setDp_dp, engineFail_mem]

theorem exec_engineComplete (t e : Nat) (s : State) : exec (.engineComplete t e) s = execEngineComplete t e s := rfl

/-- An engine other than the KV translator's that completes performs what is left of its writes; its tile changes besides. -/
theorem execEngineComplete_cases {s s' : State} {t e : Nat} {r : Running} (step : exec (.engineComplete t e) s = .next s')
    (engine : e ≠ 0) (run : ((s.dp.tile t).engine e).run = some r) :
    s' = s ∨ ∃ x y : Tile, s' = s.setDp (((performWrites t s.dp r.left).setTile t x).setTile t y) := by
  have step : s.work _ = .next s' := (exec_engineComplete t e s).symm.trans step
  obtain ⟨-, next⟩ | ⟨-, next⟩ := State.work_cases step
  · dsimp only at next
    rw [run] at next
    dsimp only at next
    split at next
    · rw [endRun, if_neg engine] at next
      exact .inr ⟨_, _, next⟩
    · exact .inl next
  · exact .inl next

end Sys2Proof.Machine
end

section
/-! What each engine instruction confines itself to: the pieces that it will write and the ranges that a stop leaves
undefined (R84, R91, R108, R120, R171, R173, R501). -/

namespace Sys2Proof.Machine

/-! ### Results of an instruction's checks -/

/-- Every result of checks that pass has the property. -/
def Ensures {ε α : Type} (m : Except ε α) (P : α → Prop) : Prop := ∀ a, m = .ok a → P a

namespace Ensures

variable {ε α β : Type} {m : Except ε α} {f : α → Except ε β} {P : β → Prop}

theorem pure {b : β} (h : P b) : Ensures (Pure.pure b : Except ε β) P := fun _ eq => by
  injection eq with eq
  exact eq ▸ h

theorem error (e : ε) : Ensures (.error e) P := fun _ eq => by injection eq

/-- What follows a check may use that the check passed. -/
theorem bind_ok (h : ∀ a, m = .ok a → Ensures (f a) P) : Ensures (m >>= f) P := fun b eq => by
  cases hm : m with
  | error e => rw [hm] at eq; injection eq
  | ok a => exact h a hm b (by rw [hm] at eq; exact eq)

/-- What follows a check need not use it. -/
theorem bind (h : ∀ a, Ensures (f a) P) : Ensures (m >>= f) P := bind_ok fun a _ => h a

end Ensures

theorem require_ok {status : Nat} {c : Bool} {u : Unit} (h : require status c = .ok u) : c = true := by
  unfold require at h
  split at h
  · assumption
  · injection h

/-! ### Pieces of writes and the ranges that hold them -/

@[simp] theorem leBytes_length : ∀ k n : Nat, (leBytes k n).length = k
  | 0, _ => rfl
  | k + 1, n => congrArg (· + 1) (leBytes_length k (n / 256))

/-- Pieces of one length, joined. -/
theorem length_flatMap_of_length_eq {α β : Type} {f : α → List β} {k : Nat} (each : ∀ a, (f a).length = k) :
    ∀ l : List α, (l.flatMap f).length = l.length * k
  | [] => (Nat.zero_mul k).symm
  | a :: l => by
    rw [List.flatMap_cons, List.length_append, each, length_flatMap_of_length_eq each l, List.length_cons, Nat.succ_mul,
      Nat.add_comm]

/-- Bytes that all lie in one of the ranges. -/
def CoveredBy (rs : List (Nat × Nat)) (a n : Nat) : Prop := ∃ r ∈ rs, r.1 ≤ a ∧ a + n ≤ r.1 + r.2

theorem CoveredBy.of_mem {rs : List (Nat × Nat)} {a n k : Nat} (mem : (a, n) ∈ rs) (le : k ≤ n) : CoveredBy rs a k :=
  ⟨(a, n), mem, Nat.le_refl a, Nat.add_le_add_left le a⟩

theorem mem_granules {a n g : Nat} (h : g ∈ granules a n) : a / 64 ≤ g ∧ 64 * g < a + n := by
  unfold granules at h
  split at h
  · exact absurd h List.not_mem_nil
  · obtain ⟨i, hi, rfl⟩ := List.mem_map.mp h
    have := List.mem_range.mp hi
    omega

/-- A piece of a write holds bytes of that write. -/
theorem granuleWrites_within {host : Bool} {a : Nat} {bs : List Byte} {bad : Nat → Bool} {w : EWrite}
    (h : w ∈ granuleWrites host a bs bad) :
    w.host = host ∧ a ≤ w.addr ∧ w.addr + w.data.length ≤ a + bs.length := by
  obtain ⟨g, hg, rfl⟩ := List.mem_map.mp h
  obtain ⟨-, hi⟩ := mem_granules hg
  refine ⟨rfl, Nat.le_max_left _ _, ?_⟩
  simp only [List.length_take, List.length_drop]
  omega

theorem deviceWrites_covered {ws : List (Nat × List Byte)} {rs : List (Nat × Nat)}
    (h : ∀ w ∈ ws, CoveredBy rs w.1 w.2.length) :
    ∀ p ∈ [deviceWrites ws].flatten, p.host = false ∧ CoveredBy rs p.addr p.data.length := by
  intro p hp
  rw [List.flatten_singleton] at hp
  obtain ⟨w, hw, hp⟩ := List.mem_flatMap.mp hp
  obtain ⟨dev, lo, hi⟩ := granuleWrites_within hp
  obtain ⟨r, mem, rlo, rhi⟩ := h w hw
  exact ⟨dev, r, mem, Nat.le_trans rlo lo, Nat.le_trans hi rhi⟩

/-- What an instruction that runs leaves unchanged: all of memory before it writes, the rest of the data plane but its own tile;
and it writes device memory only, within what an abort would leave undefined. -/
def Confined (t : Nat) (dp : DataPlane) (x : EngineEffect) : Prop :=
  OthersKept t dp x.dp ∧ x.dp.mem = dp.mem ∧
    ∀ w ∈ x.writes.flatten, w.host = false ∧ CoveredBy x.undef w.addr w.data.length

/-- An instruction that only writes. -/
theorem Confined.of_writes {t : Nat} {dp : DataPlane} {ws : List (Nat × List Byte)} {rs : List (Nat × Nat)}
    (h : ∀ w ∈ ws, CoveredBy rs w.1 w.2.length) :
    Confined t dp { dp := dp, undef := rs, writes := [deviceWrites ws] } :=
  ⟨.refl t dp, rfl, deviceWrites_covered h⟩

/-! ### MATMUL and KV_PUT -/

theorem matRow_length (x : MatDesc) (rd : Nat → Byte) (a b : MatOp) (valid : Bool) (r : Nat) :
    (matRow x rd a b valid r).length = 4 * x.n := by
  cases valid with
  | true =>
    have each (n : Nat) : (leBytes 4 (matOut x rd a b r n)).length = 4 := leBytes_length ..
    rw [matRow, if_pos rfl, length_flatMap_of_length_eq each, List.length_range, Nat.mul_comm]
  | false => rw [matRow, if_neg Bool.false_ne_true, List.length_replicate]

theorem matWrites_covered (x : MatDesc) (rd : Nat → Byte) (a b : MatOp) (rows : List Nat) :
    ∀ w ∈ matWrites x rd a b rows, CoveredBy (x.written rows) w.1 w.2.length := by
  intro w hw
  obtain ⟨r, hr, rfl⟩ := List.mem_map.mp hw
  exact .of_mem (List.mem_map.mpr ⟨r, hr, rfl⟩) (Nat.le_of_eq (matRow_length ..))

theorem matmul_confined {dp : DataPlane} (calm : dp.narrow = []) (env : Env) (t : Nat) (q : QEntry) :
    Ensures (matmul env t dp q) (Confined t dp) := by
  unfold matmul
  refine .bind fun ⟨kv, rows⟩ => ?_
  dsimp only
  split
  case isTrue =>
    refine .pure ⟨.refl t dp, rfl, deviceWrites_covered fun w hw => ?_⟩
    obtain ⟨r, hr, rfl⟩ := List.mem_map.mp hw
    exact .of_mem hr (Nat.le_of_eq List.length_replicate)
  case isFalse =>
    refine .bind fun _ => .bind fun _ => .bind fun _ => .pure ⟨?_, ?_, deviceWrites_covered (matWrites_covered _ _ _ _ _)⟩
    · exact (((((OthersKept.refl t dp).patchChoose ..).tlbTouch _).touch _).setTile _).addUsage _ _
    · refine (DataPlane.touch_mem t _ ?_).trans (patchChoose_mem ..)
      exact (((OthersKept.refl t dp).patchChoose ..).tlbTouch _).narrow.trans calm

theorem kvPut_confined {dp : DataPlane} (calm : dp.narrow = []) (t : Nat) (q : QEntry) :
    Ensures (kvPut t dp q) (Confined t dp) := by
  unfold kvPut
  refine .bind fun tb => .bind fun rows => .bind fun _ => .bind fun _ => .bind fun _ => .bind fun _ => .bind fun _ =>
    .bind fun _ => .bind fun _ => .bind fun _ => .bind fun _ => .pure ⟨?_, ?_, deviceWrites_covered fun w hw => ?_⟩
  · exact ((OthersKept.refl t dp).tlbTouch _).touch _
  · exact DataPlane.touch_mem t (dp := tlbTouch dp t _) _ calm
  · exact .of_mem (List.mem_map.mpr ⟨w, hw, rfl⟩) (Nat.le_refl _)

/-! ### KV_MASK and KV_POS -/

theorem kvMask_confined (dp : DataPlane) (t : Nat) (q : QEntry) : Ensures (kvMask t dp q) (Confined t dp) := by
  unfold kvMask
  refine .bind fun tb => ?_
  dsimp only
  split
  case h_1 => exact .error _
  case h_2 =>
    refine .bind fun _ => .bind fun _ => .pure (.of_writes fun w hw => ?_)
    obtain ⟨r, hr, rfl⟩ := List.mem_map.mp hw
    refine .of_mem (List.mem_map.mpr ⟨r, hr, rfl⟩) (Nat.le_of_eq ?_)
    rw [length_flatMap_of_length_eq fun _ => leBytes_length .., List.length_range, Nat.mul_comm]

theorem kvPos_confined (dp : DataPlane) (t : Nat) (q : QEntry) : Ensures (kvPos t dp q) (Confined t dp) := by
  unfold kvPos
  refine .bind fun tb => .bind fun _ => .bind fun _ => .pure (.of_writes fun w hw => ?_)
  refine .of_mem (List.mem_map.mpr ⟨w, hw, rfl⟩) ?_
  obtain ⟨e, -, hw⟩ := List.mem_flatMap.mp hw
  obtain ⟨i, -, rfl⟩ := List.mem_map.mp hw
  exact Nat.le_of_eq (leBytes_length ..)

/-! ### ADAPT -/

theorem readBytes_length (m : List Host.Cell) (a n : Nat) : (readBytes m a n).length = n := by simp [readBytes]

theorem checkedRead_length (dp : DataPlane) (cls : Nat) (own : Option Nat) (a n : Nat) :
    Ensures (checkedRead dp cls own a n) fun bs => bs.length = n := by
  refine .bind fun _ => ?_
  split
  · exact .error _
  · exact .pure (readBytes_length ..)

/-- The record stays one of 128 bytes (R108). -/
theorem adaptRecord_length_le (q : Nat) {b : List Byte} (len : b.length = 128) : (adaptRecord q b).length ≤ 128 := by
  unfold adaptRecord
  split
  · exact Nat.le_of_eq len
  · split
    · simp only [adaptPush, List.length_append, List.length_take, List.length_drop, List.length_replicate,
        length_flatMap_of_length_eq fun _ => leBytes_length .., leBytes_length, List.length_range]
      omega
    · simp only [List.length_append, List.length_take, List.length_drop, List.length_replicate]
      omega

theorem atIssue_ok {α : Type} {m : Except EFault α} {a : α} (h : atIssue m = .ok a) : m = .ok a := by
  cases m with
  | error e => injection h
  | ok b => injection h with h; rw [h]

/-- ADAPT writes the 128 bytes of its record at once. -/
theorem adapt_ensures (t : Nat) (dp : DataPlane) (q : QEntry) :
    Ensures (adapt t dp q) fun x => ∃ bs : List Byte, bs.length ≤ 128 ∧ x.dp = dp.tileWrite t (fld q.desc 8 8) bs := by
  unfold adapt
  refine .bind fun _ => .bind fun _ => .bind_ok fun b read => .bind fun _ => .bind fun _ => .pure ⟨_, ?_, rfl⟩
  exact adaptRecord_length_le _ (checkedRead_length _ _ _ _ _ b (atIssue_ok read))

/-! ### Vector operations -/

/-- The formats of every destination hold each element in bytes of its own (R501). -/
theorem vecBytes_eq_mul {f : Nat} (h : f ∈ [0, 1, 2, 10]) (n : Nat) : vecBytes f n = n * vecBytes f 1 := by
  simp only [List.mem_cons, List.not_mem_nil, or_false] at h
  obtain rfl | rfl | rfl | rfl := h <;> simp [vecBytes, Nat.mul_comm]

/-- What a table of conditions gives has a property when each entry has it under its own condition. -/
theorem forall_ite_some {α : Type} {c : Prop} [Decidable c] {a : α} {o : Option α} (P : α → Prop)
    (later : ∀ b, o = some b → P b) (here : c → P a) : ∀ b, (if c then some a else o) = some b → P b := by
  intro b eq
  by_cases h : c
  · rw [if_pos h] at eq
    injection eq with eq
    exact eq ▸ here h
  · exact later b ((if_neg h).symm.trans eq)

/-- Every destination format holds an element in bytes of its own, and a row of a reduction is one element (R126, R501). -/
def VSig.RowOf (v : Nat) (g : VSig) : Prop :=
  g.dst ⊆ [0, 1, 2, 10] ∧ g.dstSingle = decide (0x38 ≤ v ∧ v ≤ 0x3B)

theorem vopSig_rowOf (v fn fl : Nat) : ∀ g, vopSig v fn fl = some g → g.RowOf v := by
  unfold vopSig
  dsimp only
  iterate 18 refine forall_ite_some (VSig.RowOf v) ?_ fun code => ?_
  · exact fun _ => nofun
  all_goals exact ⟨by simp [fpOut], by grind⟩

theorem codeBytes_length (w : Nat) (cs : List Nat) : (codeBytes w cs).length = cs.length * vecBytes (fFmt w) 1 :=
  length_flatMap_of_length_eq (fun _ => leBytes_length ..) cs

/-- A row's results fill no more than its DST row and its STAT row. -/
def VRow.Fits (x : VopDesc) (g : VSig) (y : VRow) : Prop :=
  (y.codes.length ≤ if g.dstSingle then 1 else x.len) ∧ ∀ w ∈ y.stats, x.vop ≠ 0x4A ∧ 4 * w.1 + 4 ≤ g.stat

/-- The row functions of the vector operations: elementwise, one element a row, or one of the five that take a whole row. -/
theorem vectorOp_cases {i : Instr} {t v code : Nat} {stat : Bool} {f : VopDesc → (Nat → Byte) → Nat → VRow}
    (h : vectorOp i = some (t, v, code, stat, f)) :
    (¬ (0x38 ≤ code ∧ code ≤ 0x3B) ∧ ∃ e, f = eachElem e) ∨ ((0x38 ≤ code ∧ code ≤ 0x3B) ∧ ∃ e, f = eachRow e) ∨
    (code, f) ∈ [(0x48, softmaxRow), (0x49, osmStepRow), (0x4A, osmFinishRow), (0x50, lnormRow), (0x51, rmsnormRow)] := by
  unfold vectorOp at h
  split at h
  all_goals cases h
  -- RSUM to RMIN, then SOFTMAX to RMSNORM
  case h_31 | h_32 | h_33 | h_34 => exact .inr (.inl ⟨by decide, _, rfl⟩)
  case h_36 | h_37 | h_38 | h_39 | h_40 => exact .inr (.inr (by simp))
  all_goals exact .inl ⟨by decide, _, rfl⟩

section WholeRows

variable (x : VopDesc) (rd : Nat → Byte) (r : Nat)

@[simp] theorem rowF32_length : (rowF32 x rd r).length = x.len := by simp [rowF32]

theorem softmaxRow_shape : (softmaxRow x rd r).codes.length = x.len ∧ (softmaxRow x rd r).stats = [] := by
  unfold softmaxRow
  dsimp only
  split <;> simp

theorem osmStepRow_shape : (osmStepRow x rd r).codes.length = x.len ∧ ∀ w ∈ (osmStepRow x rd r).stats, w.1 < 3 := by
  unfold osmStepRow
  dsimp only
  split <;> simp

theorem osmFinishRow_shape : (osmFinishRow x rd r).codes.length = x.len ∧ (osmFinishRow x rd r).stats = [] := by
  unfold osmFinishRow
  dsimp only
  split <;> simp

theorem lnormRow_shape : (lnormRow x rd r).codes.length = x.len ∧
    ∀ w ∈ (lnormRow x rd r).stats, bit x.flags 3 = true ∧ w.1 < 2 := by
  refine ⟨by simp [lnormRow], fun w hw => ?_⟩
  obtain ⟨on, hw⟩ := List.mem_ite_nil_right.mp hw
  obtain rfl | hw := List.mem_cons.mp hw
  · exact ⟨on, Nat.two_pos⟩
  · obtain rfl := List.mem_singleton.mp hw
    exact ⟨on, Nat.one_lt_two⟩

theorem rmsnormRow_shape : (rmsnormRow x rd r).codes.length = x.len ∧
    ∀ w ∈ (rmsnormRow x rd r).stats, bit x.flags 3 = true ∧ w.1 < 1 := by
  refine ⟨by simp [rmsnormRow], fun w hw => ?_⟩
  obtain ⟨on, hw⟩ := List.mem_ite_nil_right.mp hw
  obtain rfl := List.mem_singleton.mp hw
  exact ⟨on, Nat.one_pos⟩

end WholeRows

theorem vectorOp_fits {i : Instr} {t v code : Nat} {stat : Bool} {f : VopDesc → (Nat → Byte) → Nat → VRow}
    (op : vectorOp i = some (t, v, code, stat, f)) {x : VopDesc} {g : VSig} (same : x.vop = code)
    (sig : vopSig x.vop x.fn x.flags = some g) (rd : Nat → Byte) (r : Nat) : (f x rd r).Fits x g := by
  obtain ⟨-, single⟩ := vopSig_rowOf _ _ _ g sig
  obtain ⟨elem, e, rfl⟩ | ⟨red, e, rfl⟩ | whole := vectorOp_cases op
  · exact ⟨by simp [single, same, elem, eachElem], fun w hw => absurd hw List.not_mem_nil⟩
  · exact ⟨by simp [single, same, red, eachRow], fun w hw => absurd hw List.not_mem_nil⟩
  · rw [same] at sig single
    simp only [List.mem_cons, Prod.mk.injEq, List.not_mem_nil, or_false] at whole
    obtain ⟨rfl, rfl⟩ | ⟨rfl, rfl⟩ | ⟨rfl, rfl⟩ | ⟨rfl, rfl⟩ | ⟨rfl, rfl⟩ := whole
    · obtain ⟨codes, stats⟩ := softmaxRow_shape x rd r
      exact ⟨by simp [single, codes], by simp [stats]⟩
    · obtain ⟨codes, stats⟩ := osmStepRow_shape x rd r
      have size : g.stat = 12 := by simp [vopSig] at sig; simp [← sig]
      exact ⟨by simp [single, codes], fun w hw => ⟨by omega, by have := stats w hw; omega⟩⟩
    · obtain ⟨codes, stats⟩ := osmFinishRow_shape x rd r
      exact ⟨by simp [single, codes], by simp [stats]⟩
    · obtain ⟨codes, stats⟩ := lnormRow_shape x rd r
      have size : bit x.flags 3 = true → g.stat = 8 := fun on => by simp [vopSig, on] at sig; simp [← sig]
      exact ⟨by simp [single, codes], fun w hw => ⟨by omega, by have := stats w hw; have := size this.1; omega⟩⟩
    · obtain ⟨codes, stats⟩ := rmsnormRow_shape x rd r
      have size : bit x.flags 3 = true → g.stat = 4 := fun on => by simp [vopSig, on] at sig; simp [← sig]
      exact ⟨by simp [single, codes], fun w hw => ⟨by omega, by have := stats w hw; have := size this.1; omega⟩⟩

theorem VRow.Fits.codeBytes_le {x : VopDesc} {g : VSig} {y : VRow} (fits : y.Fits x g)
    (fmt : fFmt x.dst.fmtw ∈ [0, 1, 2, 10]) : (codeBytes x.dst.fmtw y.codes).length ≤ x.dstBytes g := by
  obtain ⟨codes, -⟩ := fits
  rw [codeBytes_length, VopDesc.dstBytes, vecBytes_eq_mul fmt (if g.dstSingle then 1 else x.len)]
  exact Nat.mul_le_mul_right _ codes

theorem VRow.Fits.stat_covered {x : VopDesc} {g : VSig} {y : VRow} (fits : y.Fits x g) {rows : List Nat} {r : Nat}
    (mem : r ∈ rows) {w : Nat × Nat} (hw : w ∈ y.stats) :
    CoveredBy (x.statWrites g rows) (x.stat.addr + r * x.stat.pitch + 4 * w.1) 4 := by
  obtain ⟨-, stats⟩ := fits
  obtain ⟨writes, le⟩ := stats w hw
  refine ⟨(x.stat.addr + r * x.stat.pitch, g.stat), ?_, Nat.le_add_right _ _, by dsimp only; omega⟩
  have used : g.stat ≠ 0 := by omega
  simp only [VopDesc.statWrites, used, writes, decide_false, Bool.or_self, Bool.false_eq_true, if_false]
  exact List.mem_map.mpr ⟨r, mem, rfl⟩

theorem vecRun_confined (t : Nat) (dp : DataPlane) {x : VopDesc} {g : VSig} (rows : List Nat) (statRead : Bool)
    {f : (Nat → Byte) → Nat → VRow} (fmt : fFmt x.dst.fmtw ∈ [0, 1, 2, 10]) (fits : ∀ rd r, (f rd r).Fits x g) :
    Ensures (vecRun t dp x g rows statRead f) (Confined t dp) := by
  unfold vecRun
  refine .bind fun _ => .pure (.of_writes fun w hw => ?_)
  obtain hw | hw := List.mem_append.mp hw
  · obtain ⟨r, hr, rfl⟩ := List.mem_map.mp hw
    refine .of_mem (List.mem_append_left _ (List.mem_map.mpr ⟨r, hr, rfl⟩)) ?_
    dsimp only
    split
    · exact (fits _ r).codeBytes_le fmt
    · exact Nat.le_of_eq List.length_replicate
  · obtain ⟨r, hr, hw⟩ := List.mem_flatMap.mp hw
    obtain ⟨k, hk, rfl⟩ := List.mem_map.mp hw
    obtain ⟨u, hu, within⟩ := (fits _ r).stat_covered hr hk
    exact ⟨u, List.mem_append_right _ hu, by simpa using within⟩

theorem vecChecks_formats (dp : DataPlane) (t : Nat) (x : VopDesc) (g : VSig) :
    Ensures (vecChecks dp t x g) fun _ => vecFormatsOk x g = true :=
  .bind_ok fun _ passed _ _ => require_ok passed

theorem vecOp_confined {i : Instr} {t v code : Nat} {stat : Bool} {f : VopDesc → (Nat → Byte) → Nat → VRow}
    (op : vectorOp i = some (t, v, code, stat, f)) (sfu : VopDesc → Nat) (dp : DataPlane) {q : QEntry}
    (same : fld q.desc 0 1 = code) : Ensures (vecOp t stat sfu f dp q) (Confined t dp) := by
  unfold vecOp
  dsimp only
  split
  next => exact .error _
  next g sig =>
    refine .bind_ok fun rows passed => .bind fun _ => vecRun_confined t dp rows stat ?_ (vectorOp_fits op same sig)
    have formats := vecChecks_formats _ _ _ _ rows passed
    simp only [vecFormatsOk, vecFmtOk, Bool.and_eq_true] at formats
    obtain ⟨⟨-, -, listed⟩, -⟩ := formats
    obtain ⟨dst, -⟩ := vopSig_rowOf _ _ _ g sig
    exact dst (List.contains_iff_mem.mp listed)

/-! ### The obligation -/

/-- Settles O21: each instruction is confined by a lemma of its own; a start performs pieces of the writes that it numbers, a
failure leaves the named ranges undefined, and a completion performs what is left. -/
theorem engineFrame : Obligations.EngineFrame := by
  unfold Obligations.EngineFrame
  refine ⟨fun env t dp q x calm => ?effects, fun s t e h x a calm out => ?started,
    fun s t e sub r h f a plain out => ?stopped, fun s s' t e r a step engine run calm out => ?completed⟩
  case effects =>
    intro keeps within
    have confined (h : Confined t dp x) : within := by
      obtain ⟨⟨queues, launches, events, -, tiles⟩, mem, writes⟩ := h
      exact ⟨⟨queues, launches, events, congrArg MemSys.acl mem, congrArg MemSys.host mem, tiles⟩, mem, writes⟩
    refine ⟨fun ok => confined (matmul_confined calm env t q x ok), fun ok => confined (kvPut_confined calm t q x ok),
      fun ok => confined (kvMask_confined dp t q x ok), fun ok => confined (kvPos_confined dp t q x ok),
      fun i v code stat f op same ok => confined (vecOp_confined op noSfu dp same x ok), fun ok => ?_⟩
    obtain ⟨bs, len, eq⟩ := adapt_ensures t dp q x ok
    have others : OthersKept t dp x.dp := eq ▸ (OthersKept.refl t dp).tileWrite _ bs
    have mem : x.dp.mem = dp.mem.write (fld q.desc 8 8) bs := by rw [eq, DataPlane.tileWrite_mem calm]
    obtain ⟨queues, launches, events, -, tiles⟩ := others
    refine ⟨⟨queues, launches, events, by rw [mem, MemSys.write_acl], by rw [mem, MemSys.write_host], tiles⟩, fun a out => ?_⟩
    rw [mem]
    exact MemSys.write_outside _ _ _ _ (by omega)
  case started =>
    rw [State.started_mem]
    exact byteAt_startRun t h calm out
  case stopped =>
    rw [State.stopped_mem, plain]
    exact byteAt_undefine t f.undef out
  case completed =>
    obtain rfl | ⟨x, y, rfl⟩ := execEngineComplete_cases step engine run
    · exact ⟨rfl, rfl, rfl, fun _ _ => rfl⟩
    · obtain ⟨queues, launches, -, -, tiles⟩ := (((OthersKept.refl t s.dp).performWrites r.left).setTile x).setTile y
      exact ⟨byteAt_performWrites t r.left calm fun w hw => out w (mem_of_mem_left hw), launches, queues, tiles⟩

end Sys2Proof.Machine
end
